-- ==== Sys2Proof/Word.lean ====
section
/-! DEFINITION. The machine's word types (00_scope.md R7).

A register, a buffer byte and a datapath value are bit patterns; `BitVec.toInt` is the reading the spec
calls `s8`, `s16`, `s32`, and `BitVec.toNat` the one it calls `u8`, `u16`, `u32`. A conversion between the
two "is a reinterpretation of the same 32 bits" (40_datapath_arithmetic.md R81), so it needs no function. -/

namespace Sys2Proof

/-- A buffer byte, a command word, an 8-bit register (`u8` or `s8`). -/
abbrev Byte := BitVec 8

/-- A 16-bit register (`u16` or `s16`), the width of most coefficients (10_state.md R11). -/
abbrev Half := BitVec 16

/-- A datapath value (`u32` or `s32`): "32-bit signed/unsigned values", `XLEN` (00_scope.md R6). -/
abbrev Word := BitVec 32

/-- The 3-bit selector of `COMPENSATE` (30_encoding.md R62). -/
abbrev Sel := BitVec 3

end Sys2Proof
end

