-- ==== Sys2Proof/Syntax.lean ====
section
/-! DEFINITION. The commands of the block, one constructor per row of spec/opcode_table.json
(30_encoding.md R61, R69). -/

namespace Sys2Proof

/-- A command. Every operand but `sel` is implicit (30_encoding.md R63). -/
inductive Instr where
  /-- `CALUNPACK` (41_calunpack.md R100). -/
  | calunpack
  /-- `RAWPARSE` (42_rawparse.md R120). -/
  | rawparse
  /-- `COMPENSATE sel` (43_compensate.md R130); all eight selectors are legal (30_encoding.md R62). -/
  | compensate (sel : Sel)
deriving DecidableEq, Repr

end Sys2Proof
end

