-- ==== Sys2Proof/WellFormed.lean ====
section
/-! DEFINITION. The fields of a command word and the checks that make it legal (30_encoding.md R60, R64).

`Instr` itself admits no ill-formed term, since `sel` is three bits and all eight values are legal; the checks
are therefore on the fields a command word carries, before it becomes an `Instr`. -/

namespace Sys2Proof

/-- Format C (30_encoding.md R60): `op` bits 7:4, `z` bit 3, `sel` bits 2:0. -/
structure CommandFields where
  op : BitVec 4
  z : BitVec 1
  sel : Sel
deriving DecidableEq, Repr

/-- The fields each command puts into its word (30_encoding.md R60, R61). -/
def Instr.fields : Instr → CommandFields
  | .calunpack => ⟨1, 0, 0⟩
  | .rawparse => ⟨2, 0, 0⟩
  | .compensate sel => ⟨3, 0, sel⟩

/-- `op` is one of the three assigned codes (30_encoding.md R61). -/
def CommandFields.opAssigned (f : CommandFields) : Bool :=
  f.op == 1 || f.op == 2 || f.op == 3

/-- The reserved bit `z` is 0 (30_encoding.md R60). -/
def CommandFields.zClear (f : CommandFields) : Bool :=
  f.z == 0

/-- `sel` "must be 0 for the other commands" than `COMPENSATE` (30_encoding.md R60). -/
def CommandFields.selAllowed (f : CommandFields) : Bool :=
  f.op == 3 || f.sel == 0

/-- The word is one of the ten legal command words (30_encoding.md R64). -/
def CommandFields.wellFormed (f : CommandFields) : Bool :=
  f.opAssigned && f.zClear && f.selAllowed

/-- A command is well-formed when the fields it puts into its word pass every check. -/
def Instr.wellFormed (i : Instr) : Bool :=
  i.fields.wellFormed

end Sys2Proof
end

