-- ==== Sys2Proof/Decode.lean ====
section
/-! DEFINITION. The decoder, total on all 256 command words and rejecting by name (30_encoding.md R66), and the
encoder written from the same table (R60, R61). There is one length and no fetch, so a command word is the
whole encoding (R60). -/

namespace Sys2Proof

/-- Why a command word is reserved, by the first check of 30_encoding.md R64 that it fails. All three raise
the same `IllegalCommand` (R65). -/
inductive ReservedWord where
  /-- `op` is 0x0 or 0x4 .. 0xF. -/
  | unassignedOp
  /-- `z` is 1. -/
  | reservedBit
  /-- `sel` is not 0 in a `CALUNPACK` or `RAWPARSE` word. -/
  | reservedSelector
deriving DecidableEq, Repr

/-- What a command word decodes to. -/
inductive Decoded where
  | command (i : Instr)
  | reserved (why : ReservedWord)
deriving DecidableEq, Repr

/-- The fields of a command word (30_encoding.md R60). -/
def splitWord (w : Byte) : CommandFields :=
  ⟨w.extractLsb' 4 4, w.extractLsb' 3 1, w.extractLsb' 0 3⟩

/-- The command word with these fields (30_encoding.md R60). -/
def joinFields (f : CommandFields) : Byte :=
  f.op ++ f.z ++ f.sel

/-- The command that well-formed fields name (30_encoding.md R61). -/
def commandOf (f : CommandFields) : Instr :=
  if f.op = 1 then .calunpack
  else if f.op = 2 then .rawparse
  else .compensate f.sel

/-- 30_encoding.md R64, R66: the ten legal words decode to their command, every other word is reserved. -/
def decode (w : Byte) : Decoded :=
  let f := splitWord w
  if f.opAssigned = false then .reserved .unassignedOp
  else if f.zClear = false then .reserved .reservedBit
  else if f.selAllowed = false then .reserved .reservedSelector
  else .command (commandOf f)

/-- The command word of a command (30_encoding.md R60, R61; `COMPENSATE` with selector `s` is `0x30 + s`). -/
def encode (i : Instr) : Byte :=
  joinFields i.fields

/-- The `Instr` a decoded word names, if it names one. -/
def Decoded.instr? : Decoded → Option Instr
  | .command i => some i
  | .reserved _ => none

/-- The command word that the low `nbits` bits of `w` make; a command word has 8 bits. -/
def tableWord (nbits w : Nat) : Byte :=
  BitVec.ofNat 8 (w % 2 ^ nbits)

/-- What the decoder reads from an opcode-table word. -/
def decodeTableWord (nbits w : Nat) : Option Instr :=
  (decode (tableWord nbits w)).instr?

end Sys2Proof
end

