-- ==== Sys2Proof/Config.lean ====
section
/-! DEFINITION. What one realisation of the block fixes, and the free values.

Every `opaque` below has no body: nothing in Lean evaluates it, and a statement proved of the model holds
whatever it is. The parameters of 00_scope.md R6 that the spec has DECIDED are plain definitions in
Machine/Operands.lean, where a repair can reach them; only their types stand here. -/

namespace Sys2Proof

/-- `TOUT_UNSEL` (00_scope.md R6, 43_compensate.md R135): what `OUT_T` holds when temperature is not
selected but pressure or humidity is. -/
inductive ToutUnsel where
  | zero
  | computed
deriving DecidableEq, Repr, Inhabited

/-- `HPACK_LAYOUT` (00_scope.md R6, 41_calunpack.md R113): which of `CALH[3..5]` is which packed byte. -/
inductive HpackLayout where
  | doc
  | sensor
deriving DecidableEq, Repr, Inhabited

/-- The open parameter `TOUT_UNSEL`: the spec leaves it OPEN (92_eei_decisions.md D12), so the model does too.
Mark: DESIGN CHOICE (left uninterpreted); safe; log entry 9. -/
opaque Config.toutUnsel : ToutUnsel

/-- What a command reads at a mapped buffer address that nothing has written since `RESET`
(70_reset_and_hazards.md R232, 93_implementation_defined.md U2): a free value, one for each epoch and
address. Mark: DEDUCED; log entry 6. -/
opaque Config.freeBufferByte (epoch addr : Nat) : Byte

/-- What the host reads at a buffer address that is unmapped, or that nothing has written since `RESET`
(93_implementation_defined.md U1, U3): a free value, fresh for each read. Mark: DEDUCED; safe; log entry 7. -/
opaque Config.freeHostByte (read addr : Nat) : Byte

/-- What the host reads from a register that nothing has written since `RESET`, or at a register number
above 26 (93_implementation_defined.md U1, U4): a free value, fresh for each read. Mark: DEDUCED; safe;
log entry 7. -/
opaque Config.freeRegister (read number : Nat) : Word

/-- The quotient of an unsigned division by 0, for which 40_datapath_arithmetic.md R86 gives no value and
which the block never performs (45_stage_pressure.md R162). Mark: DESIGN CHOICE; safe; log entry 15. -/
opaque Config.udivByZero (dividend : Word) : Word

end Sys2Proof
end

