-- ==== Sys2Proof/Machine/State.lean ====
section
/-! DEFINITION. The state of the block as plain data (10_state.md R10), the host operations it takes and what
they return (47_host_access.md R200), the ways a step can stop, and the state after reset (R25). -/

namespace Sys2Proof.Machine

/-- The ways the machine can stop with a fault: none. The block "never stops by itself and has no halt state"
(70_reset_and_hazards.md R242), and its own two faults end a command with a status and go on (60_exceptions.md
R214), so they are next states. Nobody raises a `Fault`; an empty type is safe. Log entry 16. -/
inductive Fault where
deriving DecidableEq, Repr

/-- The ways a step can be refused. -/
inductive Refusal where
  /-- Raised by an arm of `exec` for a command without a meaning; no arm is left that raises it. Safe: the model
  stops where the hardware goes on. -/
  | notModelled (mnemonic : String)
deriving DecidableEq, Repr

/-- The byte buffers `CALTP`, `CALH`, `BURST` as (flat address, byte) cells, addresses strictly rising
(20_memory.md R40). An unlisted address holds no value of its own. -/
abbrev Memory := List Host.Cell

/-- The coefficient register file (10_state.md R11), registers 0 to 17. -/
structure Coefficients where
  t1 : Half
  t2 : Half
  t3 : Half
  p1 : Half
  p2 : Half
  p3 : Half
  p4 : Half
  p5 : Half
  p6 : Half
  p7 : Half
  p8 : Half
  p9 : Half
  h1 : Byte
  h2 : Half
  h3 : Byte
  h4 : Half
  h5 : Half
  h6 : Byte
deriving DecidableEq, Repr

/-- The raw sample registers `RAW_P`, `RAW_T`, `RAW_H` (10_state.md R13), registers 18 to 20. -/
structure RawSample where
  p : Word
  t : Word
  h : Word
deriving DecidableEq, Repr

/-- The output registers `OUT_P`, `OUT_T`, `OUT_H` (10_state.md R15), registers 22 to 24. -/
structure CompensatedSample where
  p : Word
  t : Word
  h : Word
deriving DecidableEq, Repr

/-- A host operation (47_host_access.md R200). -/
inductive HostOp where
  /-- `HWB addr, byte` (R201). -/
  | hwb (addr byte : Byte)
  /-- `HRB addr` (R202). -/
  | hrb (addr : Byte)
  /-- `HRR n` (R203). The spec gives the register number no width. Log entry 17. -/
  | hrr (n : Nat)
  /-- `HCMD word` (R204). -/
  | hcmd (word : Byte)
  /-- `RESET` (70_reset_and_hazards.md R230). -/
  | reset
deriving DecidableEq, Repr

/-- What a host operation returns. -/
inductive HostAnswer where
  /-- `HWB` and `RESET` return nothing. -/
  | nothing
  /-- The byte of `HRB` (R202). -/
  | byte (b : Byte)
  /-- The 32-bit view of `HRR` (R203). -/
  | view (w : Word)
  /-- The `s8` status of `HCMD` (R204). -/
  | status (c : Byte)
deriving DecidableEq, Repr

/-- The state of the block (10_state.md R10), and after it the model's own fields. -/
structure State where
  /-- `T1` .. `H6` (R11). -/
  coef : Coefficients
  /-- `RAW_P`, `RAW_T`, `RAW_H` (R13). -/
  raw : RawSample
  /-- `TFINE` (R14). -/
  tfine : Word
  /-- `OUT_P`, `OUT_T`, `OUT_H` (R15). -/
  out : CompensatedSample
  /-- `STATUS` (R17). -/
  status : Byte
  /-- `cal_valid` (R22). -/
  calValid : Bool
  /-- `raw_valid` (R22). -/
  rawValid : Bool
  /-- `tf_valid` (R22). -/
  tfValid : Bool
  /-- `CALTP`, `CALH`, `BURST` (R20). -/
  mem : Memory
  /-- The model's own: `TFINE` has been written since `RESET`. Log entry 5. -/
  tfineWritten : Bool
  /-- The model's own: the output registers have been written since `RESET`. Log entry 5. -/
  outWritten : Bool
  /-- The model's own: indexes the free values commands read. Log entry 6. -/
  epoch : Nat
  /-- The model's own: indexes the free values the host reads. Log entry 7. -/
  hostReads : Nat
  /-- The model's own: the host operations not yet performed, next first. Log entry 1. -/
  pending : List HostOp
  /-- The model's own: what the latest host operation returned. Log entry 3. -/
  answer : HostAnswer
deriving DecidableEq, Repr

/-- The coefficient registers after reset. R25 leaves them unspecified; 0 is the model's.
Mark: DESIGN CHOICE; unsafe; log entry 4. -/
def Coefficients.zero : Coefficients :=
  ⟨0, 0, 0, 0, 0, 0, 0, 0, 0, 0, 0, 0, 0, 0, 0, 0, 0, 0⟩

/-- The state after `RESET` (10_state.md R25): the three flags and `STATUS` 0, no buffer byte holding a value.
The other registers are unspecified there; their 0 is the model's. Mark: DESIGN CHOICE; unsafe; log entry 4. -/
def State.reset : State where
  coef := Coefficients.zero
  raw := ⟨0, 0, 0⟩
  tfine := 0
  out := ⟨0, 0, 0⟩
  status := 0
  calValid := false
  rawValid := false
  tfValid := false
  mem := []
  tfineWritten := false
  outWritten := false
  epoch := 0
  hostReads := 0
  pending := []
  answer := .nothing

end Sys2Proof.Machine
end

