-- ==== Sys2Proof/Machine/Ops.lean ====
section
/-! DEFINITION. The named operations over the buffers and the registers: every read and write of State goes
through one of these. Raising a fault (60_exceptions.md R214) is ONE operation here, `raiseFault`; the spec
has no return from it (R217). -/

namespace Sys2Proof.Machine

/-! ### The byte buffers (20_memory.md) -/

/-- A flat buffer address is mapped (20_memory.md R48): `CALTP` 0x88..0xA1, `CALH` 0xE1..0xE7,
`BURST` 0xF7..0xFE. -/
def mapped (a : Nat) : Bool :=
  (Nat.ble 0x88 a && Nat.ble a 0xA1) || (Nat.ble 0xE1 a && Nat.ble a 0xE7)
    || (Nat.ble 0xF7 a && Nat.ble a 0xFE)

/-- The byte last written at `a`, if one has been written since `RESET` (20_memory.md R47). -/
def Memory.read : Memory → Nat → Option Byte
  | [], _ => none
  | (k, v) :: m, a => if k = a then some v else Memory.read m a

/-- Set the byte at `a`, keeping the addresses strictly rising. -/
def Memory.write : Memory → Nat → Byte → Memory
  | [], a, b => [(a, b)]
  | (k, v) :: m, a, b =>
    if a < k then (a, b) :: (k, v) :: m
    else if a = k then (a, b) :: m
    else (k, v) :: Memory.write m a b

/-- The canonical form: addresses strictly rising, each of them mapped. An unlisted address holds no value,
so no entry can equal what an unlisted address reads as. -/
abbrev Memory.wf (m : Memory) : Prop :=
  m.Pairwise (fun x y => x.1 < y.1) ∧ ∀ c ∈ m, mapped c.1 = true

/-! ### Single-field updates of State -/

/-- Write `STATUS` (10_state.md R17). -/
def withStatus (s : State) (c : Byte) : State :=
  { s with status := c }

/-- Write the coefficient register file. -/
def withCoefficients (s : State) (c : Coefficients) : State :=
  { s with coef := c }

/-- Write the raw sample registers. -/
def withRaw (s : State) (r : RawSample) : State :=
  { s with raw := r }

/-- Write `TFINE`. -/
def withTfine (s : State) (v : Word) : State :=
  { s with tfine := v, tfineWritten := true }

/-- Write the output registers. -/
def withOutputs (s : State) (o : CompensatedSample) : State :=
  { s with out := o, outWritten := true }

/-- Write the byte buffers. -/
def withMemory (s : State) (m : Memory) : State :=
  { s with mem := m, epoch := s.epoch + 1 }

/-- Record what the host operation returned. -/
def withAnswer (s : State) (a : HostAnswer) : State :=
  { s with answer := a }

/-- Set the host operations not yet performed. -/
def withPending (s : State) (ops : List HostOp) : State :=
  { s with pending := ops }

/-- Count one host read, so that the next free value is a fresh one (93_implementation_defined.md U1). -/
def countHostRead (s : State) : State :=
  { s with hostReads := s.hostReads + 1 }

/-! ### Ending a command -/

/-- The status code `OK` (10_state.md R17). -/
def statusOk : Byte := 0

/-- The block's two faults (60_exceptions.md R210). -/
inductive CommandFault where
  /-- 60_exceptions.md R211: raised by `COMPENSATE`. -/
  | nullReference
  /-- 60_exceptions.md R212: raised by the decode of a reserved command word. -/
  | illegalCommand
deriving DecidableEq, Repr

/-- The status code of a fault (10_state.md R17): `NullReference` -1, `IllegalCommand` -128. -/
def faultCode : CommandFault → Byte
  | .nullReference => BitVec.ofInt 8 (-1)
  | .illegalCommand => BitVec.ofInt 8 (-128)

/-- `raise E` (60_exceptions.md R214): the code goes into `STATUS` and nothing else changes. -/
def raiseFault (e : CommandFault) (s : State) : State :=
  withStatus s (faultCode e)

/-- A command that completes writes `OK` (10_state.md R17). -/
def completeOk (s : State) : State :=
  withStatus s statusOk

/-! ### The registers as the host sees them (10_state.md R26) -/

/-- The type of a register, which decides its 32-bit view (10_state.md R26). -/
inductive RegisterKind where
  | u8
  | u16
  | s8
  | s16
  | bits32
deriving DecidableEq, Repr

/-- The type of register number `n` (10_state.md R26); numbers above 26 are reserved. -/
def registerKind (n : Nat) : RegisterKind :=
  match n with
  | 0 | 3 => .u16
  | 1 | 2 | 4 | 5 | 6 | 7 | 8 | 9 | 10 | 11 | 13 | 15 | 16 => .s16
  | 12 | 14 => .u8
  | 17 | 25 => .s8
  | _ => .bits32

/-- The extension of a register's bits to 32 (10_state.md R26); only the bits of the register's type count. -/
def extendView (k : RegisterKind) (v : Word) : Word :=
  match k with
  | .u8 => (v.setWidth 8).setWidth 32
  | .u16 => (v.setWidth 16).setWidth 32
  | .s8 => (v.setWidth 8).signExtend 32
  | .s16 => (v.setWidth 16).signExtend 32
  | .bits32 => v

/-- The `FLAGS` view (10_state.md R18): `cal_valid` bit 0, `raw_valid` bit 1, `tf_valid` bit 2, zeros above. -/
def flagsWord (s : State) : Word :=
  BitVec.ofNat 32 (s.calValid.toNat + 2 * s.rawValid.toNat + 4 * s.tfValid.toNat)

/-- The bits register number `n` holds, in the low bits of a word (numbers of 10_state.md R11, R13 to R18). -/
def registerBits (s : State) (n : Nat) : Word :=
  match n with
  | 0 => s.coef.t1.setWidth 32
  | 1 => s.coef.t2.setWidth 32
  | 2 => s.coef.t3.setWidth 32
  | 3 => s.coef.p1.setWidth 32
  | 4 => s.coef.p2.setWidth 32
  | 5 => s.coef.p3.setWidth 32
  | 6 => s.coef.p4.setWidth 32
  | 7 => s.coef.p5.setWidth 32
  | 8 => s.coef.p6.setWidth 32
  | 9 => s.coef.p7.setWidth 32
  | 10 => s.coef.p8.setWidth 32
  | 11 => s.coef.p9.setWidth 32
  | 12 => s.coef.h1.setWidth 32
  | 13 => s.coef.h2.setWidth 32
  | 14 => s.coef.h3.setWidth 32
  | 15 => s.coef.h4.setWidth 32
  | 16 => s.coef.h5.setWidth 32
  | 17 => s.coef.h6.setWidth 32
  | 18 => s.raw.p
  | 19 => s.raw.t
  | 20 => s.raw.h
  | 21 => s.tfine
  | 22 => s.out.p
  | 23 => s.out.t
  | 24 => s.out.h
  | 25 => s.status.setWidth 32
  | 26 => flagsWord s
  | _ => 0

/-- Register number `n` exists and something has given it a value since `RESET`. `CALUNPACK` is the only
writer of registers 0 to 17 and sets `cal_valid`, which only `RESET` clears (10_state.md R16, R22); the same
holds of `RAWPARSE`, registers 18 to 20 and `raw_valid`. -/
def registerWritten (s : State) (n : Nat) : Bool :=
  if n ≤ 17 then s.calValid
  else if n ≤ 20 then s.rawValid
  else if n ≤ 21 then s.tfineWritten
  else if n ≤ 24 then s.outWritten
  else decide (n ≤ 26)

/-- What `HRR n` returns (47_host_access.md R203): the view of the register, or of a free value where the
register is unwritten (10_state.md R25) or reserved (93_implementation_defined.md U4). Log entries 5, 7, 8. -/
def registerView (s : State) (n : Nat) : Word :=
  extendView (registerKind n)
    (if registerWritten s n then registerBits s n else Config.freeRegister s.hostReads n)

/-! ### Reset -/

/-- `RESET` (70_reset_and_hazards.md R230): the state of R25. The host's queue is the host's and stays; the
two free-value counters go on, so that no value is drawn twice. Log entry 14. -/
def applyReset (s : State) : State :=
  { State.reset with
      epoch := s.epoch + 1
      hostReads := s.hostReads
      pending := s.pending }

end Sys2Proof.Machine
end

