-- ==== Sys2Proof/Machine/Flags.lean ====
section
/-! DEFINITION. What sets and clears the three flags (10_state.md R22). There are no arithmetic condition
codes: "No arithmetic operation sets a flag" (R22, 40_datapath_arithmetic.md R82). -/

namespace Sys2Proof.Machine

/-- Completion of `CALUNPACK`: `cal_valid` set, `tf_valid` cleared (41_calunpack.md R109). -/
def flagCalibrated (s : State) : State :=
  { s with calValid := true, tfValid := false }

/-- Completion of `RAWPARSE`: `raw_valid` set, `tf_valid` cleared (42_rawparse.md R124). -/
def flagSampled (s : State) : State :=
  { s with rawValid := true, tfValid := false }

/-- Completion of the temperature stage: `tf_valid` set (43_compensate.md R134). -/
def flagTfineFresh (s : State) : State :=
  { s with tfValid := true }

/-- The validity check of `COMPENSATE` passes (43_compensate.md R132). -/
def inputsPresent (s : State) : Bool :=
  s.calValid && s.rawValid

end Sys2Proof.Machine
end

