-- ==== Sys2Proof/Machine/Operands.lean ====
section
/-! DEFINITION. Operand assembly (30_encoding.md R62, R63): the selector bits, the multi-byte fields of the
buffers and the two packed 12-bit values, with the decided layout parameters of 00_scope.md R6. -/

namespace Sys2Proof.Machine

/-! ### The selector (30_encoding.md R62) -/

/-- Bit 0, `SEL_P`. -/
def selectsPressure (sel : Sel) : Bool := sel.getLsbD 0

/-- Bit 1, `SEL_T`. -/
def selectsTemperature (sel : Sel) : Bool := sel.getLsbD 1

/-- Bit 2, `SEL_H`. -/
def selectsHumidity (sel : Sel) : Bool := sel.getLsbD 2

/-! ### Buffer bytes and fields -/

/-- `MemRead(a, 1)` as a command does it. A command "reads its buffer as one indivisible snapshot"
(20_memory.md R47), so two reads of one address in one command agree. A byte nothing has written is a free
value (70_reset_and_hazards.md R232); log entry 6. The free value stands for the byte, not for the register decoded
from it: of a register decoded from written and unwritten bytes together, the written bytes' bits are known.
Mark: DESIGN CHOICE; unsafe; log entry 20. -/
def commandByte (s : State) (a : Nat) : Byte :=
  (Memory.read s.mem a).getD (Config.freeBufferByte s.epoch a)

/-- The little-endian pair of two bytes (20_memory.md R44, R45). -/
def le16 (lo hi : Byte) : Half :=
  BitVec.ofNat 16 (hi.toNat * 256 + lo.toNat)

/-- `LE16(a)` (20_memory.md R45). -/
def le16At (s : State) (a : Nat) : Half :=
  le16 (commandByte s a) (commandByte s (a + 1))

/-- `H1_INDEX` (00_scope.md R6), decided: 25. Log entry 11. -/
def h1Index : Nat := 25

/-- `HPACK_LAYOUT` (00_scope.md R6), decided: `DOC`. Log entry 11. -/
def hpackLayout : HpackLayout := .doc

/-- Index in `CALH` of the document's byte0, the high bits of `H4` (41_calunpack.md R106, R113). -/
def packedByte0Index : HpackLayout → Nat
  | .doc => 3
  | .sensor => 3

/-- Index in `CALH` of the document's byte1, the high bits of `H5` (41_calunpack.md R107, R113). -/
def packedByte1Index : HpackLayout → Nat
  | .doc => 4
  | .sensor => 5

/-- Index in `CALH` of the document's byte2, the two low nibbles (41_calunpack.md R106, R107, R113). -/
def packedByte2Index : HpackLayout → Nat
  | .doc => 5
  | .sensor => 4

/-- Flat base address of `CALTP` (20_memory.md R40). -/
def caltpBase : Nat := 0x88

/-- Flat base address of `CALH` (20_memory.md R40). -/
def calhBase : Nat := 0xE1

/-- Flat base address of `BURST` (20_memory.md R40). -/
def burstBase : Nat := 0xF7

/-- The packed-nibble decode of one 12-bit value (41_calunpack.md R106, R107): the sign-extended byte times
16, as a 16-bit pattern, or-ed with the nibble. -/
def packed12 (high : Byte) (nibble : Half) : Half :=
  BitVec.ofInt 16 (high.toInt * 16) ||| nibble

/-- `b & 0x0F`. -/
def lowNibble (b : Byte) : Half :=
  BitVec.ofNat 16 (b.toNat % 16)

/-- `b >> 4`. -/
def highNibble (b : Byte) : Half :=
  BitVec.ofNat 16 (b.toNat / 16)

/-- A 20-bit field of the burst (42_rawparse.md R121, R122): `(b0 << 12) | (b1 << 4) | (b2 >> 4)`, in 32 bits. -/
def burst20 (b0 b1 b2 : Byte) : Word :=
  (b0.setWidth 32 <<< 12) ||| (b1.setWidth 32 <<< 4) ||| (b2.setWidth 32 >>> 4)

/-- The 16-bit field of the burst (42_rawparse.md R123): `(b0 << 8) | b1`, in 32 bits. -/
def burst16 (b0 b1 : Byte) : Word :=
  (b0.setWidth 32 <<< 8) ||| b1.setWidth 32

end Sys2Proof.Machine
end

