-- ==== Sys2Proof/Machine/Calunpack.lean ====
section
/-! DEFINITION. `CALUNPACK` (41_calunpack.md R100). -/

namespace Sys2Proof.Machine

/-- `H4`, the document's value A (41_calunpack.md R106), under either layout (R113). -/
def unpackH4 (layout : HpackLayout) (s : State) : Half :=
  packed12 (commandByte s (calhBase + packedByte0Index layout))
    (lowNibble (commandByte s (calhBase + packedByte2Index layout)))

/-- `H5`, the document's value B (41_calunpack.md R107), under either layout (R113). -/
def unpackH5 (layout : HpackLayout) (s : State) : Half :=
  packed12 (commandByte s (calhBase + packedByte1Index layout))
    (highNibble (commandByte s (calhBase + packedByte2Index layout)))

/-- The 18 coefficients the two calibration buffers hold (41_calunpack.md R101 to R108). -/
def unpackCoefficients (s : State) : Coefficients where
  t1 := le16At s 0x88
  t2 := le16At s 0x8A
  t3 := le16At s 0x8C
  p1 := le16At s 0x8E
  p2 := le16At s 0x90
  p3 := le16At s 0x92
  p4 := le16At s 0x94
  p5 := le16At s 0x96
  p6 := le16At s 0x98
  p7 := le16At s 0x9A
  p8 := le16At s 0x9C
  p9 := le16At s 0x9E
  h1 := commandByte s (caltpBase + h1Index)
  h2 := le16At s 0xE1
  h3 := commandByte s 0xE3
  h4 := unpackH4 hpackLayout s
  h5 := unpackH5 hpackLayout s
  h6 := commandByte s 0xE7

/-- `CALUNPACK` (41_calunpack.md R100): all 18 registers, `cal_valid` set, `tf_valid` cleared, `OK`. It cannot
fail (R112). -/
def execCalunpack (s : State) : Host.Outcome State Fault Refusal :=
  .next (completeOk (flagCalibrated (withCoefficients s (unpackCoefficients s))))

end Sys2Proof.Machine
end

