-- ==== Sys2Proof/Machine/Datapath.lean ====
section
/-! DEFINITION. The 32-bit datapath (40_datapath_arithmetic.md R80 to R91): every operation computes the
exact integer result and then narrows it, as R80 says it. No operation records a carry, an overflow, a sign
or a zero anywhere (R82). -/

namespace Sys2Proof.Machine

/-- `wrap32(z)` (R80): the `s32` congruent to `z` modulo 2^32. -/
def wrap32 (z : Int) : Word :=
  BitVec.ofInt 32 z

/-- `u32(z)` (R81): the `u32` congruent to `z` modulo 2^32, which is the same 32 bits as `wrap32 z`. -/
def u32 (z : Int) : Word :=
  BitVec.ofInt 32 z

/-- R82. -/
def add32 (a b : Word) : Word :=
  wrap32 (a.toInt + b.toInt)

/-- R82. -/
def sub32 (a b : Word) : Word :=
  wrap32 (a.toInt - b.toInt)

/-- R83: the low 32 bits of the exact product. -/
def mul32 (a b : Word) : Word :=
  wrap32 (a.toInt * b.toInt)

/-- R84: signed division by a positive constant, truncating toward zero. -/
def sdiv (a : Word) (d : Nat) : Word :=
  wrap32 (a.toInt.tdiv d)

/-- R86: unsigned division rounding down. The spec gives no value for a divisor of 0 and the block never
divides by 0; log entry 15. -/
def udiv (a b : Word) : Word :=
  if b = 0 then Config.udivByZero a else BitVec.ofNat 32 (a.toNat / b.toNat)

/-- Unsigned addition, wrapping (R87). No step of the stages uses it. -/
def addU (a b : Word) : Word :=
  u32 ((a.toNat : Int) + b.toNat)

/-- Unsigned subtraction, wrapping (R87). -/
def subU (a b : Word) : Word :=
  u32 ((a.toNat : Int) - b.toNat)

/-- Unsigned multiplication, wrapping (R87). -/
def mulU (a b : Word) : Word :=
  u32 ((a.toNat : Int) * b.toNat)

/-- R87: the left shift by one. -/
def shl1 (p : Word) : Word :=
  u32 ((p.toNat : Int) * 2)

/-- R89 on an `s32`: the comparison is signed. -/
def clampS (v : Word) (lo hi : Int) : Word :=
  if v.toInt < lo then wrap32 lo else if hi < v.toInt then wrap32 hi else v

/-- R89 on a `u32`: the comparison is unsigned. -/
def clampU (v : Word) (lo hi : Nat) : Word :=
  if v.toNat < lo then u32 lo else if hi < v.toNat then u32 hi else v

/-- R91: multiply-accumulate, the product wrapped before the addition. -/
def mac (a b c : Word) : Word :=
  add32 (mul32 a b) c

/-- R91: multiply-subtract. -/
def msub (a b c : Word) : Word :=
  sub32 c (mul32 a b)

/-- R90: a `u8` or `u16` coefficient enters the datapath with its value unchanged. -/
def zextIn {n : Nat} (v : BitVec n) : Word :=
  v.setWidth 32

/-- R90: an `s8` or `s16` coefficient enters the datapath with its value unchanged. -/
def sextIn {n : Nat} (v : BitVec n) : Word :=
  v.signExtend 32

end Sys2Proof.Machine
end

