-- ==== Sys2Proof/Machine/Humidity.lean ====
section
/-! DEFINITION. The humidity stage (46_stage_humidity.md R180 to R183), the model parameter `F_H` at the
spec's default, which the spec marks as its own reconstruction (93_implementation_defined.md G1).
Mark: PRESUMED; log entry 10. A reused name of the spec (`d`, `var2` ..) is primed here. -/

namespace Sys2Proof.Machine

/-- `var5` of step H-8 (46_stage_humidity.md R181). -/
def humidityDifference (rawH tfine : Word) (c : Coefficients) : Word :=
  let var1 := sub32 tfine 76800
  let var2 := mulU rawH 16384
  let var3 := mul32 (sextIn c.h4) 1048576
  let var4 := mul32 (sextIn c.h5) var1
  let d := sub32 var2 var3
  let d' := sub32 d var4
  let d'' := add32 d' 16384
  sdiv d'' 32768

/-- `var2` of step H-12 (46_stage_humidity.md R181). -/
def humidityGain (tfine : Word) (c : Coefficients) : Word :=
  let var1 := sub32 tfine 76800
  let var2 := sdiv (mul32 var1 (sextIn c.h6)) 1024
  let var3 := sdiv (mul32 var1 (zextIn c.h3)) 2048
  let var4 := add32 (sdiv (mul32 var2 (add32 var3 32768)) 1024) 2097152
  sdiv (add32 (mul32 var4 (sextIn c.h2)) 8192) 16384

/-- `var5` of step H-16 (46_stage_humidity.md R181), from `var3` of step H-13. -/
def humidityQuadratic (var3 : Word) (h1 : Byte) : Word :=
  let r := sdiv var3 32768
  let var4 := sdiv (mul32 r r) 128
  sub32 var3 (sdiv (mul32 var4 (zextIn h1)) 16)

/-- Steps H-17 and H-18 (46_stage_humidity.md R182): the floor at 0 and the ceiling. -/
def humidityLimited (var5 : Word) : Word :=
  clampS var5 0 419430400

/-- `stage_H` (46_stage_humidity.md R180), ending in steps H-19 and H-20 (R183). -/
def stageHumidity (rawH tfine : Word) (c : Coefficients) : Word :=
  let var3 := mul32 (humidityDifference rawH tfine c) (humidityGain tfine c)
  let h := sdiv (humidityLimited (humidityQuadratic var3 c.h1)) 4096
  clampU h 0 102400

end Sys2Proof.Machine
end

