-- ==== Sys2Proof/Machine/Pressure.lean ====
section
/-! DEFINITION. The pressure stage (45_stage_pressure.md R160 to R166), the model parameter `F_P` at the
spec's default, which the spec marks as its own reconstruction (93_implementation_defined.md G1).
Mark: PRESUMED; log entry 10. A reused name of the spec (`var1`, `p`) is primed here. -/

namespace Sys2Proof.Machine

/-- `var1` of step P-2 (45_stage_pressure.md R161). -/
def pressureOffset (tfine : Word) : Word :=
  sub32 (sdiv tfine 2) 64000

/-- `qq` of step P-4 (45_stage_pressure.md R161). -/
def pressureSquare (tfine : Word) : Word :=
  let q := sdiv (pressureOffset tfine) 4
  mul32 q q

/-- `var2` of step P-7 (45_stage_pressure.md R161). -/
def pressureBias (tfine : Word) (c : Coefficients) : Word :=
  let var1 := pressureOffset tfine
  let var2 := mul32 (sdiv (pressureSquare tfine) 2048) (sextIn c.p6)
  let var2' := add32 var2 (mul32 (mul32 var1 (sextIn c.p5)) 2)
  add32 (sdiv var2' 4) (mul32 (sextIn c.p4) 65536)

/-- `var1` of step P-14, the divisor of step P-19 (45_stage_pressure.md R161). -/
def pressureDivisor (tfine : Word) (c : Coefficients) : Word :=
  let var1 := pressureOffset tfine
  let var3 := sdiv (mul32 (sextIn c.p3) (sdiv (pressureSquare tfine) 8192)) 8
  let var4 := sdiv (mul32 (sextIn c.p2) var1) 2
  let s := add32 var3 var4
  let var1' := sdiv s 262144
  let g := add32 32768 var1'
  let pre := mul32 g (zextIn c.p1)
  sdiv pre 32768

/-- `p` of step P-18 (45_stage_pressure.md R163), from `RAW_P` and `var2` of step P-7. -/
def pressureDividend (rawP var2 : Word) : Word :=
  let var5 := subU 1048576 rawP
  let d := sdiv var2 4096
  mulU (subU var5 d) 3125

/-- Step P-19 (45_stage_pressure.md R164). -/
def pressureQuotient (p dv : Word) : Word :=
  if p.toNat < 0x80000000 then udiv (shl1 p) dv else mulU (udiv p dv) 2

/-- Steps P-20 to P-24 (45_stage_pressure.md R165). -/
def pressureCorrected (p : Word) (c : Coefficients) : Word :=
  let e := udiv (mulU (udiv p 8) (udiv p 8)) 8192
  let var1 := sdiv (mul32 (sextIn c.p9) e) 4096
  let var2 := sdiv (mul32 (udiv p 4) (sextIn c.p8)) 8192
  let adj := sdiv (add32 (add32 var1 var2) (sextIn c.p7)) 16
  add32 p adj

/-- `stage_P` (45_stage_pressure.md R160): the zero-divisor branch (R162), or the quotient, its correction and
the unsigned clamp (R166). -/
def stagePressure (rawP tfine : Word) (c : Coefficients) : Word :=
  let dv := pressureDivisor tfine c
  if dv = 0 then 30000
  else
    let p := pressureQuotient (pressureDividend rawP (pressureBias tfine c)) dv
    clampU (pressureCorrected p c) 30000 110000

end Sys2Proof.Machine
end

