-- ==== Sys2Proof/Machine/Temperature.lean ====
section
/-! DEFINITION. The temperature stage (44_stage_temperature.md R150 to R153), the model parameter `F_T` at
the spec's default, which the spec marks as its own reconstruction (93_implementation_defined.md G1).
Mark: PRESUMED; log entry 10. -/

namespace Sys2Proof.Machine

/-- Steps T-1 to T-9 (44_stage_temperature.md R151): `tfine`. -/
def fineTemperature (rawT : Word) (t1 t2 t3 : Half) : Word :=
  let a1 := sub32 (udiv rawT 8) (mul32 (zextIn t1) 2)
  let m1 := mul32 a1 (sextIn t2)
  let var1 := sdiv m1 2048
  let a2 := sub32 (udiv rawT 16) (zextIn t1)
  let sq := mul32 a2 a2
  let d2 := sdiv sq 4096
  let m2 := mul32 d2 (sextIn t3)
  let var2 := sdiv m2 16384
  add32 var1 var2

/-- Steps T-10 to T-12 (44_stage_temperature.md R151): the reading before the clamp. -/
def unclampedTemperature (tfine : Word) : Word :=
  let m3 := mul32 tfine 5
  let s3 := add32 m3 128
  sdiv s3 256

/-- Step T-13 (44_stage_temperature.md R153). -/
def temperatureReading (tfine : Word) : Word :=
  clampS (unclampedTemperature tfine) (-4000) 8500

end Sys2Proof.Machine
end

