-- ==== Sys2Proof/Machine/Compensate.lean ====
section
/-! DEFINITION. `COMPENSATE sel` (43_compensate.md R130): the sequence of R131, one function for each of its
parts. -/

namespace Sys2Proof.Machine

/-- ZERO (43_compensate.md R133). -/
def zeroOutputs (s : State) : State :=
  withOutputs s ⟨0, 0, 0⟩

/-- What `OUT_T` gets from the temperature `t` when temperature is not selected and the temperature stage has
run (43_compensate.md R135). The spec leaves `TOUT_UNSEL` open; log entry 9. -/
def unselectedTemperature (t : Word) : Word :=
  match Config.toutUnsel with
  | .zero => 0
  | .computed => t

/-- ST_T (43_compensate.md R131, R134, R135): runs unless `sel` is 0. `TFINE` gets the unclamped value
(44_stage_temperature.md R152). -/
def temperaturePart (sel : Sel) (s : State) : State :=
  if sel = 0 then s
  else
    let tfine := fineTemperature s.raw.t s.coef.t1 s.coef.t2 s.coef.t3
    let t := temperatureReading tfine
    let outT := if selectsTemperature sel then t else unselectedTemperature t
    withOutputs (flagTfineFresh (withTfine s tfine)) { s.out with t := outT }

/-- ST_P (43_compensate.md R131, R137): runs when bit 0 of `sel` is set. -/
def pressurePart (sel : Sel) (s : State) : State :=
  if selectsPressure sel then
    withOutputs s { s.out with p := stagePressure s.raw.p s.tfine s.coef }
  else s

/-- ST_H (43_compensate.md R131, R138): runs when bit 2 of `sel` is set. -/
def humidityPart (sel : Sel) (s : State) : State :=
  if selectsHumidity sel then
    withOutputs s { s.out with h := stageHumidity s.raw.h s.tfine s.coef }
  else s

/-- ZERO and the three stages in the order of 43_compensate.md R131. -/
def compensateStages (sel : Sel) (s : State) : State :=
  humidityPart sel (pressurePart sel (temperaturePart sel (zeroOutputs s)))

/-- `COMPENSATE sel` (43_compensate.md R131): CHECK (R132), then the stages, then `OK`. -/
def execCompensate (sel : Sel) (s : State) : Host.Outcome State Fault Refusal :=
  .next (if inputsPresent s then completeOk (compensateStages sel s) else raiseFault .nullReference s)

end Sys2Proof.Machine
end

