-- ==== Sys2Proof/Machine/Rawparse.lean ====
section
/-! DEFINITION. `RAWPARSE` (42_rawparse.md R120). -/

namespace Sys2Proof.Machine

/-- The three raw quantities `BURST` holds (42_rawparse.md R121 to R123). -/
def parseRaw (s : State) : RawSample where
  p := burst20 (commandByte s 0xF7) (commandByte s 0xF8) (commandByte s 0xF9)
  t := burst20 (commandByte s 0xFA) (commandByte s 0xFB) (commandByte s 0xFC)
  h := burst16 (commandByte s 0xFD) (commandByte s 0xFE)

/-- `RAWPARSE` (42_rawparse.md R120): the raw registers, `raw_valid` set, `tf_valid` cleared, `OK`. It never
fails. -/
def execRawparse (s : State) : Host.Outcome State Fault Refusal :=
  .next (completeOk (flagSampled (withRaw s (parseRaw s))))

end Sys2Proof.Machine
end

