-- ==== Sys2Proof/Machine/Dispatch.lean ====
section
/-! DEFINITION. One arm per command (30_encoding.md R61). -/

namespace Sys2Proof.Machine

def exec (i : Instr) (s : State) : Host.Outcome State Fault Refusal :=
  match i with
  | .calunpack => Sys2Proof.Machine.execCalunpack s
  | .rawparse => Sys2Proof.Machine.execRawparse s
  | .compensate sel => Sys2Proof.Machine.execCompensate sel s

end Sys2Proof.Machine
end

