-- ==== Sys2Proof/Machine/HostAccess.lean ====
section
/-! DEFINITION. The host operations (47_host_access.md R200 to R204) and `RESET` (70_reset_and_hazards.md
R230). None of them has a binary encoding; only the word of `HCMD` is decoded. -/

namespace Sys2Proof.Machine

/-- `HWB addr, byte` (47_host_access.md R201): stores a mapped byte; a write to an unmapped address changes
nothing and reports nothing (20_memory.md R48). -/
def hostWriteByte (addr byte : Byte) (s : State) : State :=
  withAnswer (if mapped addr.toNat then withMemory s (Memory.write s.mem addr.toNat byte) else s) .nothing

/-- The byte `HRB addr` returns (47_host_access.md R202). Log entry 7. -/
def hostByte (s : State) (addr : Byte) : Byte :=
  if mapped addr.toNat then
    (Memory.read s.mem addr.toNat).getD (Config.freeHostByte s.hostReads addr.toNat)
  else Config.freeHostByte s.hostReads addr.toNat

/-- `HRB addr` (47_host_access.md R202). -/
def hostReadByte (addr : Byte) (s : State) : State :=
  countHostRead (withAnswer s (.byte (hostByte s addr)))

/-- `HRR n` (47_host_access.md R203). -/
def hostReadRegister (n : Nat) (s : State) : State :=
  countHostRead (withAnswer s (.view (registerView s n)))

/-- The return of `HCMD`: the host gets `STATUS` (47_host_access.md R204). -/
def answerStatus (s : State) : State :=
  withAnswer s (.status s.status)

/-- What `HCMD` makes of the command's outcome. -/
def returnFromCommand (r : Host.Outcome State Fault Refusal) : Host.Outcome State Fault Refusal :=
  match r with
  | .next t => .next (answerStatus t)
  | .fault f => .fault f
  | .refused f => .refused f

/-- `HCMD word` (47_host_access.md R204): decode, execute to completion, return `STATUS`. A reserved word
raises `IllegalCommand` (60_exceptions.md R212). -/
def hostCommand (word : Byte) (s : State) : Host.Outcome State Fault Refusal :=
  match decode word with
  | .command i => returnFromCommand (exec i s)
  | .reserved _ => .next (answerStatus (raiseFault .illegalCommand s))

/-- One host operation (47_host_access.md R200). -/
def performHostOp (op : HostOp) (s : State) : Host.Outcome State Fault Refusal :=
  match op with
  | .hwb addr byte => .next (hostWriteByte addr byte s)
  | .hrb addr => .next (hostReadByte addr s)
  | .hrr n => .next (hostReadRegister n s)
  | .hcmd word => hostCommand word s
  | .reset => .next (applyReset s)

/-- The next host operation and the state without it (47_host_access.md R200: "the host issues them one after
another"). Log entry 1. -/
def nextHostOp (s : State) : Option (HostOp × State) :=
  match s.pending with
  | [] => none
  | op :: rest => some (op, withPending s rest)

/-- Put a command word where the next step takes it from. -/
def issueCommand (s : State) (word : Byte) : State :=
  withPending s (.hcmd word :: s.pending)

end Sys2Proof.Machine
end

