-- ==== Sys2Proof/Machine/Step.lean ====
section
/-! DEFINITION. One step of the machine: the next host operation, performed whole (47_host_access.md R200). -/

namespace Sys2Proof.Machine

/-- With no host operation left the block stays as it is: it is "quiescent after every host operation" and
has no halt state (70_reset_and_hazards.md R242). Log entry 2. -/
def step (s : State) : Host.Outcome State Fault Refusal :=
  match nextHostOp s with
  | none => .next s
  | some (op, t) => performHostOp op t

/-- `s` with the command word as the host's next operation. Log entry 1. -/
def State.withFetchWord (s : State) (nbits w : Nat) : State :=
  issueCommand s (tableWord nbits w)

end Sys2Proof.Machine
end

