-- ==== Sys2Proof/Machine/Assembler.lean ====
section
/-! DEFINITION. The spec's assembler notation (30_encoding.md R67) as abstract syntax, and the expansion of
its pseudo-instructions into host operations (R68). The characters a line is written in are not modelled. -/

namespace Sys2Proof.Machine

/-- A letter of a selector list (30_encoding.md R67). -/
inductive SelectorLetter where
  | p
  | t
  | h
deriving DecidableEq, Repr

/-- The selector operand of `COMPENSATE` as it is written (30_encoding.md R67). -/
inductive SelectorOperand where
  /-- A number 0 to 7. -/
  | number (n : Nat)
  /-- A list of letters joined by a bar, in any order. -/
  | letters (ls : List SelectorLetter)
  /-- The word `NONE`. -/
  | none
  /-- The word `ALL`. -/
  | all
deriving DecidableEq, Repr

/-- The selector bit a letter names (30_encoding.md R62). -/
def selectorLetterBit : SelectorLetter → Sel
  | .p => 1
  | .t => 2
  | .h => 4

/-- The selector an operand stands for (30_encoding.md R67, R68); a number above 7 and an empty list are no
selector operands. -/
def selectorValue : SelectorOperand → Option Sel
  | .number n => if n ≤ 7 then some (BitVec.ofNat 3 n) else Option.none
  | .letters [] => Option.none
  | .letters (l :: ls) => some ((l :: ls).foldl (fun acc x => acc ||| selectorLetterBit x) 0)
  | .none => some 0
  | .all => some 7

/-- The command word of `COMPENSATE` with a written operand (30_encoding.md R68). -/
def assembleCompensate (o : SelectorOperand) : Option Byte :=
  (selectorValue o).map (fun sel => encode (.compensate sel))

/-- `LDBUF base, b0 b1 ...` (30_encoding.md R68). Where `base + k` passes 0xFF, which R68 does not settle, the
address wraps modulo 256. Mark: DESIGN CHOICE; safe; log entry 19. -/
def ldbuf : Byte → List Byte → List HostOp
  | _, [] => []
  | base, b :: bs => .hwb base b :: ldbuf (base + 1) bs

/-- `LDCAL tp, h` (30_encoding.md R68). -/
def ldcal (tp h : List Byte) : List HostOp :=
  ldbuf (BitVec.ofNat 8 caltpBase) tp ++ ldbuf (BitVec.ofNat 8 calhBase) h ++ [.hcmd (encode .calunpack)]

/-- `LDRAW b` (30_encoding.md R68). -/
def ldraw (b : List Byte) : List HostOp :=
  ldbuf (BitVec.ofNat 8 burstBase) b ++ [.hcmd (encode .rawparse)]

end Sys2Proof.Machine
end

