-- ==== Sys2Proof/Safety.lean ====
section
/-! DEFINITION. The terms in which claims are stated: the spec's arithmetic notation (00_scope.md R8), the
host's duties (47_host_access.md R206), what counts as a safe run, and the machine's invariant. -/

namespace Sys2Proof

open Sys2Proof.Machine

/-! ### Notation of 00_scope.md R8 -/

/-- `sext_N(v)` (00_scope.md R8): the `n`-bit pattern `v` read as two's complement. -/
def sextNat (n v : Nat) : Int :=
  if v < 2 ^ (n - 1) then (v : Int) else (v : Int) - 2 ^ n

/-- `wrap32(z)` on integers (40_datapath_arithmetic.md R80). -/
def wrapInt (z : Int) : Int :=
  (z + 2147483648) % 4294967296 - 2147483648

/-- `u32(z)` on integers (40_datapath_arithmetic.md R81). -/
def u32Int (z : Int) : Int :=
  z % 4294967296

/-! ### What the buffers hold -/

/-- The host has written `b` at flat address `a` and nothing after it. -/
abbrev HoldsByte (s : State) (a : Nat) (b : Byte) : Prop :=
  Memory.read s.mem a = some b

/-- The bytes of `b` stand at `a`, `a + 1`, ... . -/
abbrev HoldsBytes (s : State) (a n : Nat) (b : Nat → Byte) : Prop :=
  ∀ i < n, HoldsByte s (a + i) (b i)

/-- The 25 used bytes of `CALTP` and the 7 of `CALH` have been written since `RESET` (R206, R232). -/
abbrev CalibrationLoaded (s : State) : Prop :=
  (∀ i < 26, i ≠ 24 → (Memory.read s.mem (0x88 + i)).isSome) ∧
    ∀ i < 7, (Memory.read s.mem (0xE1 + i)).isSome

/-- The 8 bytes of `BURST` have been written since `RESET` (R206, R232). -/
abbrev BurstLoaded (s : State) : Prop :=
  ∀ i < 8, (Memory.read s.mem (0xF7 + i)).isSome

/-- The host keeps its duty for this operation (47_host_access.md R206): no command unpacks a byte that was
never written. -/
abbrev DutyMet (op : HostOp) (s : State) : Prop :=
  (op = .hcmd (encode .calunpack) → CalibrationLoaded s) ∧
    (op = .hcmd (encode .rawparse) → BurstLoaded s)

/-- A safe run of `k` steps: it goes on, and at each step the host keeps its duty. -/
def SafeRun : Nat → State → Prop
  | 0, _ => True
  | k + 1, s =>
    (∀ op ∈ s.pending.head?, DutyMet op s) ∧ ∃ t, step s = .next t ∧ SafeRun k t

/-- The flags, registers and buffers of the spec are the same in the two states. -/
structure SameBlock (s t : State) : Prop where
  coef : t.coef = s.coef
  raw : t.raw = s.raw
  tfine : t.tfine = s.tfine
  out : t.out = s.out
  status : t.status = s.status
  calValid : t.calValid = s.calValid
  rawValid : t.rawValid = s.rawValid
  tfValid : t.tfValid = s.tfValid
  mem : ∀ a, Memory.read t.mem a = Memory.read s.mem a

/-! ### The invariant -/

/-- The status codes of the block (10_state.md R17). -/
abbrev LegalStatus (c : Byte) : Prop :=
  c.toInt = 0 ∨ c.toInt = -1 ∨ c.toInt = -128

/-- What holds of every state of a run from reset. A range is claimed of a register once something has written it: what
an unwritten register holds is open (10_state.md R25), and no clause rests on the value `State.reset` gives it. The marks
of written registers are those of log entry 5. -/
structure Inv (s : State) : Prop where
  /-- The buffers keep their canonical form. -/
  memory : Memory.wf s.mem
  /-- 10_state.md R13: the raw registers hold 20, 20 and 16 bits. -/
  rawP : s.rawValid = true → s.raw.p.toNat < 2 ^ 20
  rawT : s.rawValid = true → s.raw.t.toNat < 2 ^ 20
  rawH : s.rawValid = true → s.raw.h.toNat < 2 ^ 16
  /-- 10_state.md R12: `H4` and `H5` hold 12-bit signed values. -/
  h4 : s.calValid = true → -2048 ≤ s.coef.h4.toInt ∧ s.coef.h4.toInt ≤ 2047
  h5 : s.calValid = true → -2048 ≤ s.coef.h5.toInt ∧ s.coef.h5.toInt ≤ 2047
  /-- 10_state.md R17. -/
  status : LegalStatus s.status
  /-- 10_state.md R15: the ranges of the outputs. -/
  outP : s.outWritten = true → s.out.p.toNat = 0 ∨ (30000 ≤ s.out.p.toNat ∧ s.out.p.toNat ≤ 110000)
  outT : s.outWritten = true → -4000 ≤ s.out.t.toInt ∧ s.out.t.toInt ≤ 8500
  outH : s.outWritten = true → s.out.h.toNat ≤ 102400
  /-- Outputs are written only once both valid flags are set (43_compensate.md R132), and neither is cleared
  but by `RESET` (10_state.md R22). -/
  outWritten : s.outWritten = true → s.calValid = true ∧ s.rawValid = true
  /-- `TFINE` is written only by a `COMPENSATE` that has zeroed the outputs (43_compensate.md R131). -/
  tfineWritten : s.tfineWritten = true → s.outWritten = true
  /-- 10_state.md R18: `tf_valid` is 1 only when `TFINE` was computed from the current `RAW_T`, `T1`, `T2`, `T3`. -/
  fresh : s.tfValid = true → s.tfineWritten = true ∧
    s.tfine = fineTemperature s.raw.t s.coef.t1 s.coef.t2 s.coef.t3

end Sys2Proof
end

