-- ==== Sys2Proof/Certificates/Slice0/Obligations.lean ====
section
/-! DEFINITION. The statements for the provers, in the order of the spec's files. A statement whose docstring
says "derived" rests on an inference or a reconstruction the spec marks as its own, or on a log entry. -/

open Sys2Proof Sys2Proof.Machine

/-! ### Encoding (30_encoding.md) -/

/-- 30_encoding.md R66: the decoding algorithm on every command word, its last arm included: a word it gives no
command raises `IllegalCommand`. -/
def Obligations.DecodeFollowsAlgorithm : Prop :=
  ∀ w : Byte,
    ((decode w).instr? =
      if w = 0x10 then some .calunpack
      else if w = 0x20 then some .rawparse
      else if w &&& 0xF8 = 0x30 then some (.compensate (w.extractLsb' 0 3))
      else none) ∧
    ((decode w).instr? = none →
      ∀ s, hostCommand w s = .next (answerStatus (raiseFault .illegalCommand s)))

/-- 30_encoding.md sections 1 and 2: command words written out bit by bit decode to the command they stand for,
and reserved words to none (vectors E1 to E15 of 95_test_vectors.md). -/
def Obligations.SpecWordsDecode : Prop :=
  decode 0b00010000 = .command .calunpack ∧
  decode 0b00100000 = .command .rawparse ∧
  decode 0b00110000 = .command (.compensate 0b000) ∧
  decode 0b00110001 = .command (.compensate 0b001) ∧
  decode 0b00110010 = .command (.compensate 0b010) ∧
  decode 0b00110100 = .command (.compensate 0b100) ∧
  decode 0b00110111 = .command (.compensate 0b111) ∧
  decode 0b00000000 = .reserved .unassignedOp ∧
  decode 0b00011000 = .reserved .reservedBit ∧
  decode 0b00100001 = .reserved .reservedSelector ∧
  decode 0b00111111 = .reserved .reservedBit ∧
  decode 0xB6 = .reserved .unassignedOp

/-- 30_encoding.md R64 and 60_exceptions.md R212: exactly ten words are legal, and any other word raises
`IllegalCommand`, which changes nothing but `STATUS` (the host's queue moves on and gets the status). -/
def Obligations.ReservedWordsChangeOnlyStatus : Prop :=
  (∀ w : Byte, (∃ i, decode w = .command i) ↔
    w ∈ [0x10, 0x20, 0x30, 0x31, 0x32, 0x33, 0x34, 0x35, 0x36, 0x37]) ∧
  ∀ (w : Byte) (s : State) (rest : List HostOp), s.pending = .hcmd w :: rest →
    (∀ i, decode w ≠ .command i) →
    step s = .next { s with
      pending := rest
      status := BitVec.ofInt 8 (-128)
      answer := .status (BitVec.ofInt 8 (-128)) }

/-- 30_encoding.md sections 1, 2 and 5: decoding an encoded command gives it back, with every selector, and a
word that decodes to a command is that command's only encoding. -/
def Obligations.DecodeEncodeAgree : Prop :=
  (∀ i : Instr, decode (encode i) = .command i) ∧
  ∀ (w : Byte) (i : Instr), decode w = .command i → encode i = w

/-- 30_encoding.md R68: the pseudo-instructions. `LDBUF` is one `HWB` for each byte at ascending addresses (said
where every address `base + k` is a byte; see `LdbufAddressWraps`), `LDCAL` and `LDRAW` load their buffers and issue
their command, and the spellings of `COMPENSATE` have the words of the table. -/
def Obligations.PseudoInstructionsExpand : Prop :=
  (∀ (base : Byte) (bs : List Byte), base.toNat + bs.length ≤ 256 →
    (ldbuf base bs).length = bs.length ∧
      ∀ (i : Nat) (b : Byte), bs[i]? = some b →
        ∃ a : Byte, a.toNat = base.toNat + i ∧ (ldbuf base bs)[i]? = some (.hwb a b)) ∧
  (∀ tp h : List Byte, ldcal tp h = ldbuf 0x88 tp ++ ldbuf 0xE1 h ++ [.hcmd 0x10]) ∧
  (∀ b : List Byte, ldraw b = ldbuf 0xF7 b ++ [.hcmd 0x20]) ∧
  assembleCompensate .all = some 0x37 ∧ assembleCompensate (.letters [.p, .t, .h]) = some 0x37 ∧
  assembleCompensate .none = some 0x30 ∧ assembleCompensate (.number 0) = some 0x30 ∧
  assembleCompensate (.letters [.p]) = some 0x31 ∧ assembleCompensate (.letters [.t]) = some 0x32 ∧
  assembleCompensate (.letters [.h]) = some 0x34 ∧ assembleCompensate (.letters [.p, .t]) = some 0x33 ∧
  assembleCompensate (.letters [.p, .h]) = some 0x35 ∧ assembleCompensate (.letters [.t, .h]) = some 0x36

/-- Derived: 30_encoding.md does not settle what `LDBUF` writes where `base + k` passes 0xFF. The model's choice (log
entry 19): the address wraps modulo 256, for every base and every number of bytes. -/
def Obligations.LdbufAddressWraps : Prop :=
  ∀ (base : Byte) (bs : List Byte) (i : Nat),
    (ldbuf base bs)[i]? = bs[i]?.map (fun b => HostOp.hwb (BitVec.ofNat 8 ((base.toNat + i) % 256)) b)

/-! ### The step and the host (47_host_access.md, 70_reset_and_hazards.md) -/

/-- 47_host_access.md section 3: when the host's next operation is `HCMD` of a word that decodes to a command, the
step is `exec` of that command on the state without the operation, and the host gets the status it leaves. -/
def Obligations.StepRunsDecodedCommand : Prop :=
  ∀ (s : State) (w : Byte) (i : Instr) (rest : List HostOp), s.pending = .hcmd w :: rest →
    decode w = .command i →
    ∃ t, exec i { s with pending := rest } = .next t ∧
      step s = .next { t with answer := .status t.status }

/-- 47_host_access.md section 3 (the return of `HCMD`): every `HCMD` returns, whatever its word, and what it
returns is `STATUS`, that is what `HRR 25` would return next. -/
def Obligations.CommandReturnsStatus : Prop :=
  ∀ (s : State) (w : Byte) (rest : List HostOp), s.pending = .hcmd w :: rest →
    ∃ t, step s = .next t ∧ t.pending = rest ∧ t.answer = .status t.status ∧
      (registerView t 25).toInt = t.status.toInt ∧ LegalStatus t.status

/-- 70_reset_and_hazards.md section 5 ("The block never stops by itself and has no halt state"): every run goes on,
for any number of steps, from any state. -/
def Obligations.EveryRunGoesOn : Prop :=
  ∀ (k : Nat) (s : State), ∃ t, Host.Core.run core k s = .next t

/-- 70_reset_and_hazards.md section 5 (quiescence): with no host operation left the state stays as it is. Derived:
the model's reading, log entry 2. -/
def Obligations.IdleStepChangesNothing : Prop :=
  ∀ s : State, s.pending = [] → step s = .next s

/-- 47_host_access.md R201: `HWB` stores the byte at a mapped address and leaves every other byte, every register,
every flag and `STATUS` as they were; at an unmapped address it changes nothing. Writing twice leaves the second
byte. -/
def Obligations.HostWriteStoresOneByte : Prop :=
  ∀ (s : State) (addr byte : Byte) (rest : List HostOp), s.pending = .hwb addr byte :: rest →
    ∃ t, step s = .next t ∧ t.pending = rest ∧
      t.coef = s.coef ∧ t.raw = s.raw ∧ t.tfine = s.tfine ∧ t.out = s.out ∧ t.status = s.status ∧
      t.calValid = s.calValid ∧ t.rawValid = s.rawValid ∧ t.tfValid = s.tfValid ∧
      (∀ a, a ≠ addr.toNat → Memory.read t.mem a = Memory.read s.mem a) ∧
      ((0x88 ≤ addr.toNat ∧ addr.toNat ≤ 0xA1) ∨ (0xE1 ≤ addr.toNat ∧ addr.toNat ≤ 0xE7) ∨
          (0xF7 ≤ addr.toNat ∧ addr.toNat ≤ 0xFE) →
        Memory.read t.mem addr.toNat = some byte) ∧
      (¬((0x88 ≤ addr.toNat ∧ addr.toNat ≤ 0xA1) ∨ (0xE1 ≤ addr.toNat ∧ addr.toNat ≤ 0xE7) ∨
          (0xF7 ≤ addr.toNat ∧ addr.toNat ≤ 0xFE)) →
        t.mem = s.mem)

/-- 47_host_access.md section 2 (`HRB` returns the byte last written there): a byte written at a mapped address, with
any host operations after it but `RESET` and a write to that address (commands, reads and writes elsewhere), is what
`HRB` of that address returns. -/
def Obligations.HostReadReturnsByteWritten : Prop :=
  ∀ (s : State) (addr byte : Byte) (others rest : List HostOp),
    mapped addr.toNat = true → (∀ op ∈ others, op ≠ .reset ∧ ∀ b, op ≠ .hwb addr b) →
    s.pending = .hwb addr byte :: (others ++ .hrb addr :: rest) →
    ∃ t, Host.Core.run core (others.length + 2) s = .next t ∧ t.answer = .byte byte ∧ t.pending = rest

/-- 10_state.md R26: the 32-bit view of every register number, for a register that something has written (what an
unwritten one reads as is open, log entries 5 and 7): a
`u8` or `u16` register zero-extended, an `s8` or `s16` register sign-extended, the others as they are. -/
def Obligations.RegisterViewsFollowTable : Prop :=
  ∀ (s : State) (n : Nat) (rest : List HostOp), s.pending = .hrr n :: rest → registerWritten s n = true →
    ∃ t w, step s = .next t ∧ t.answer = .view w ∧
      (n = 0 → w.toNat = s.coef.t1.toNat) ∧ (n = 1 → w.toInt = s.coef.t2.toInt) ∧
      (n = 2 → w.toInt = s.coef.t3.toInt) ∧ (n = 3 → w.toNat = s.coef.p1.toNat) ∧
      (n = 4 → w.toInt = s.coef.p2.toInt) ∧ (n = 5 → w.toInt = s.coef.p3.toInt) ∧
      (n = 6 → w.toInt = s.coef.p4.toInt) ∧ (n = 7 → w.toInt = s.coef.p5.toInt) ∧
      (n = 8 → w.toInt = s.coef.p6.toInt) ∧ (n = 9 → w.toInt = s.coef.p7.toInt) ∧
      (n = 10 → w.toInt = s.coef.p8.toInt) ∧ (n = 11 → w.toInt = s.coef.p9.toInt) ∧
      (n = 12 → w.toNat = s.coef.h1.toNat) ∧ (n = 13 → w.toInt = s.coef.h2.toInt) ∧
      (n = 14 → w.toNat = s.coef.h3.toNat) ∧ (n = 15 → w.toInt = s.coef.h4.toInt) ∧
      (n = 16 → w.toInt = s.coef.h5.toInt) ∧ (n = 17 → w.toInt = s.coef.h6.toInt) ∧
      (n = 18 → w = s.raw.p) ∧ (n = 19 → w = s.raw.t) ∧ (n = 20 → w = s.raw.h) ∧
      (n = 21 → w = s.tfine) ∧ (n = 22 → w = s.out.p) ∧ (n = 23 → w = s.out.t) ∧
      (n = 24 → w = s.out.h) ∧ (n = 25 → w.toInt = s.status.toInt) ∧
      (n = 26 → w.toNat = s.calValid.toNat + 2 * s.rawValid.toNat + 4 * s.tfValid.toNat) ∧ n ≤ 26

/-- 47_host_access.md sections 2 and 3 (a read has no side effect): `HRB` of any address and `HRR` of any number
change no register, no flag and no buffer byte. -/
def Obligations.HostReadsChangeNothing : Prop :=
  ∀ (s : State) (op : HostOp) (rest : List HostOp), s.pending = op :: rest →
    ((∃ a, op = .hrb a) ∨ ∃ n, op = .hrr n) →
    ∃ t, step s = .next t ∧ t.pending = rest ∧ SameBlock s t

/-- 10_state.md section 3 (access rights): only a command writes a register or a flag; a step whose operation
is neither `HCMD` nor `RESET` leaves all of them as they were. -/
def Obligations.OnlyCommandsWriteRegisters : Prop :=
  ∀ (s t : State) (op : HostOp) (rest : List HostOp), s.pending = op :: rest →
    (∀ w, op ≠ .hcmd w) → op ≠ .reset → step s = .next t →
    t.coef = s.coef ∧ t.raw = s.raw ∧ t.tfine = s.tfine ∧ t.out = s.out ∧ t.status = s.status ∧
      t.calValid = s.calValid ∧ t.rawValid = s.rawValid ∧ t.tfValid = s.tfValid

/-- 10_state.md section 6 (the flag table): exactly which host operations leave each flag set. `cal_valid` and
`raw_valid` are cleared by `RESET` alone. -/
def Obligations.FlagsFollowTable : Prop :=
  ∀ (s t : State) (op : HostOp) (rest : List HostOp), s.pending = op :: rest → step s = .next t →
    (t.calValid = true ↔ op = .hcmd 0x10 ∨ (s.calValid = true ∧ op ≠ .reset)) ∧
    (t.rawValid = true ↔ op = .hcmd 0x20 ∨ (s.rawValid = true ∧ op ≠ .reset)) ∧
    (t.tfValid = true ↔
      ((∃ sel : Sel, sel ≠ 0 ∧ op = .hcmd (encode (.compensate sel))) ∧
        s.calValid = true ∧ s.rawValid = true) ∨
      (s.tfValid = true ∧ op ≠ .reset ∧ op ≠ .hcmd 0x10 ∧ op ≠ .hcmd 0x20))

/-- 10_state.md section 3 (`TFINE`): a step that changes `TFINE` is a `RESET` or a `COMPENSATE` with a selector
other than 0 whose validity check passes. -/
def Obligations.TfineChangesOnlyInTemperatureStage : Prop :=
  ∀ (s t : State) (op : HostOp) (rest : List HostOp), s.pending = op :: rest → step s = .next t →
    t.tfine ≠ s.tfine →
    op = .reset ∨ ∃ sel : Sel, sel ≠ 0 ∧ op = .hcmd (encode (.compensate sel)) ∧
      s.calValid = true ∧ s.rawValid = true ∧
      t.tfine = fineTemperature s.raw.t s.coef.t1 s.coef.t2 s.coef.t3

/-- 47_host_access.md section 3 (the same command issued twice gives the same registers): the state a command
leaves is a fixed point of that command, unloaded buffers included (for these by log entry 6). -/
def Obligations.CommandsAreRepeatable : Prop :=
  ∀ (i : Instr) (s t : State), exec i s = .next t → exec i t = .next t

/-- 70_reset_and_hazards.md section 1 and 10_state.md section 8: the values the spec gives for reset (three flags and
`STATUS` 0, `FLAGS` 0, no buffer byte loaded, no other register written). The value of a register the spec leaves
unspecified is the model's (log entry 4) and is not stated; which count as written is the model's mark (log entry 5). -/
def Obligations.ResetLeavesSpecifiedValues : Prop :=
  State.reset.calValid = false ∧ State.reset.rawValid = false ∧ State.reset.tfValid = false ∧
  State.reset.status = 0 ∧ flagsWord State.reset = 0 ∧
  (∀ a, Memory.read State.reset.mem a = none) ∧ (∀ n ≤ 24, registerWritten State.reset n = false)

/-- 70_reset_and_hazards.md section 1: the `RESET` event, applied at any time between host operations, brings the
flags, `STATUS` and the buffers to their reset values and makes every other register unwritten (the model's mark, log
entry 5). -/
def Obligations.ResetEventResets : Prop :=
  ∀ (s : State) (rest : List HostOp), s.pending = .reset :: rest →
    ∃ t, step s = .next t ∧ t.pending = rest ∧
      t.calValid = false ∧ t.rawValid = false ∧ t.tfValid = false ∧ t.status = 0 ∧
      (∀ a, Memory.read t.mem a = none) ∧ ∀ n ≤ 24, registerWritten t n = false

/-! ### CALUNPACK (41_calunpack.md) -/

/-- 41_calunpack.md R101: the temperature coefficients. -/
def Obligations.CalunpackTemperatureFields : Prop :=
  ∀ (s : State) (b : Nat → Byte), HoldsBytes s 0x88 6 b →
    ∃ t, exec .calunpack s = .next t ∧
      t.coef.t1.toNat = (b 1).toNat * 256 + (b 0).toNat ∧
      t.coef.t2.toInt = sextNat 16 ((b 3).toNat * 256 + (b 2).toNat) ∧
      t.coef.t3.toInt = sextNat 16 ((b 5).toNat * 256 + (b 4).toNat)

/-- 41_calunpack.md R102: the pressure coefficients. -/
def Obligations.CalunpackPressureFields : Prop :=
  ∀ (s : State) (b : Nat → Byte), HoldsBytes s 0x8E 18 b →
    ∃ t, exec .calunpack s = .next t ∧
      t.coef.p1.toNat = (b 1).toNat * 256 + (b 0).toNat ∧
      t.coef.p2.toInt = sextNat 16 ((b 3).toNat * 256 + (b 2).toNat) ∧
      t.coef.p3.toInt = sextNat 16 ((b 5).toNat * 256 + (b 4).toNat) ∧
      t.coef.p4.toInt = sextNat 16 ((b 7).toNat * 256 + (b 6).toNat) ∧
      t.coef.p5.toInt = sextNat 16 ((b 9).toNat * 256 + (b 8).toNat) ∧
      t.coef.p6.toInt = sextNat 16 ((b 11).toNat * 256 + (b 10).toNat) ∧
      t.coef.p7.toInt = sextNat 16 ((b 13).toNat * 256 + (b 12).toNat) ∧
      t.coef.p8.toInt = sextNat 16 ((b 15).toNat * 256 + (b 14).toNat) ∧
      t.coef.p9.toInt = sextNat 16 ((b 17).toNat * 256 + (b 16).toNat)

/-- 41_calunpack.md R103, R104, R105, R108: the humidity coefficients that are not packed. -/
def Obligations.CalunpackHumidityFields : Prop :=
  ∀ (s : State) (a : Byte) (b : Nat → Byte), HoldsByte s 0xA1 a → HoldsBytes s 0xE1 7 b →
    ∃ t, exec .calunpack s = .next t ∧
      t.coef.h1.toNat = a.toNat ∧
      t.coef.h2.toInt = sextNat 16 ((b 1).toNat * 256 + (b 0).toNat) ∧
      t.coef.h3.toNat = (b 2).toNat ∧
      t.coef.h6.toInt = sextNat 8 (b 6).toNat

/-- 41_calunpack.md R106, R107: the packed-nibble decode, with the document's expressions and the equal sums that
the rules give. -/
def Obligations.CalunpackPackedFields : Prop :=
  ∀ (s : State) (b0 b1 b2 : Byte), HoldsByte s 0xE4 b0 → HoldsByte s 0xE5 b1 → HoldsByte s 0xE6 b2 →
    ∃ t, exec .calunpack s = .next t ∧
      t.coef.h4.toInt =
        sextNat 16 ((sextNat 8 b0.toNat * 16 % 65536).toNat ||| (b2.toNat &&& 0x0F)) ∧
      t.coef.h4.toInt = sextNat 8 b0.toNat * 16 + (b2.toNat % 16 : Nat) ∧
      t.coef.h5.toInt =
        sextNat 16 ((sextNat 8 b1.toNat * 16 % 65536).toNat ||| (b2.toNat >>> 4)) ∧
      t.coef.h5.toInt = sextNat 8 b1.toNat * 16 + (b2.toNat / 16 : Nat)

/-- Derived: 41_calunpack.md section 3 gives this as an inference of its own (its rule R110). The packed decode of
a byte and a nibble is the 12-bit sign extension of the two together. -/
def Obligations.PackedDecodeIsTwelveBitExtension : Prop :=
  ∀ (high : Byte) (n : Nat), n < 16 →
    (packed12 high (BitVec.ofNat 16 n)).toInt = sextNat 12 (high.toNat * 16 + n)

/-- 41_calunpack.md R109 and R112: for every state, loaded or not, `CALUNPACK` completes with `OK`, sets
`cal_valid`, clears `tf_valid`, and keeps `TFINE`, the raw registers and the outputs; and from then on
`cal_valid` stays set until `RESET`. -/
def Obligations.CalunpackCompletesAndValidates : Prop :=
  (∀ s : State, ∃ t, exec .calunpack s = .next t ∧ t.status.toInt = 0 ∧ t.calValid = true ∧
    t.tfValid = false ∧ t.tfine = s.tfine ∧ t.raw = s.raw ∧ t.out = s.out) ∧
  ∀ (s t : State) (op : HostOp) (rest : List HostOp), s.calValid = true → s.pending = op :: rest →
    op ≠ .reset → step s = .next t → t.calValid = true

/-- 10_state.md section 3 (access rights) and 41_calunpack.md section 3: what `CALUNPACK` leaves unchanged:
everything but the coefficients, `cal_valid`, `tf_valid` and `STATUS`; it stores no byte. -/
def Obligations.CalunpackFrame : Prop :=
  ∀ s t : State, exec .calunpack s = .next t →
    t.raw = s.raw ∧ t.tfine = s.tfine ∧ t.out = s.out ∧ t.rawValid = s.rawValid ∧
    (∀ a, Memory.read t.mem a = Memory.read s.mem a) ∧ t.pending = s.pending

/-- 41_calunpack.md R111: two `CALUNPACK` runs whose loaded calibration buffers agree at every address but that of
`CALTP[24]`, whatever else differs (the rest of memory, the host's queue, earlier writes), give identical coefficients,
status and flags, and keep identical whatever else was so before. For bytes that nothing has written see
`CalunpackIgnoresUnusedByteUnwritten`. -/
def Obligations.CalunpackIgnoresUnusedByte : Prop :=
  ∀ s s' : State, CalibrationLoaded s →
    (∀ a, (0x88 ≤ a ∧ a ≤ 0xA1 ∧ a ≠ 0xA0) ∨ (0xE1 ≤ a ∧ a ≤ 0xE7) →
      Memory.read s'.mem a = Memory.read s.mem a) →
    ∃ t t', exec .calunpack s = .next t ∧ exec .calunpack s' = .next t' ∧
      t'.coef = t.coef ∧ t'.status = t.status ∧ t'.calValid = t.calValid ∧ t'.tfValid = t.tfValid ∧
      (s'.raw = s.raw → t'.raw = t.raw) ∧ (s'.tfine = s.tfine → t'.tfine = t.tfine) ∧
      (s'.out = s.out → t'.out = t.out) ∧ (s'.rawValid = s.rawValid → t'.rawValid = t.rawValid)

/-- Derived: for bytes that nothing has written this rests on log entry 6, by which a free value stays the same while no
buffer write and no `RESET` comes between. `CALUNPACK` of two states that differ at most in the byte at 0xA0, with any
other byte loaded or not, gives the same state but for that byte. -/
def Obligations.CalunpackIgnoresUnusedByteUnwritten : Prop :=
  ∀ (s : State) (m : Memory), (∀ a, a ≠ 0xA0 → Memory.read m a = Memory.read s.mem a) →
    ∃ t, exec .calunpack s = .next t ∧ exec .calunpack { s with mem := m } = .next { t with mem := m }

/-- Derived: 10_state.md section 2 gives this as an inference of its own (its rule R12). After any `CALUNPACK`,
also of bytes never written (for these by log entry 20: the free value is the byte's), `H4` and `H5` lie in the 12-bit
signed range. -/
def Obligations.PackedCoefficientsStayInRange : Prop :=
  ∀ s t : State, exec .calunpack s = .next t →
    -2048 ≤ t.coef.h4.toInt ∧ t.coef.h4.toInt ≤ 2047 ∧
    -2048 ≤ t.coef.h5.toInt ∧ t.coef.h5.toInt ≤ 2047

/-- 41_calunpack.md section 3 (the alternative layout, which `CALUNPACK` does not use, log entry 11): under `SENSOR`
only the parts of the three packed bytes change. The shared nibbles are `CALH[4]`, the high bits of `H5` are
`CALH[5]`, and the decode expressions stay the same. -/
def Obligations.SensorLayoutMovesSharedNibbles : Prop :=
  ∀ (s : State) (b3 b4 b5 : Byte), HoldsByte s 0xE4 b3 → HoldsByte s 0xE5 b4 → HoldsByte s 0xE6 b5 →
    (unpackH4 .sensor s).toInt =
      sextNat 16 ((sextNat 8 b3.toNat * 16 % 65536).toNat ||| (b4.toNat &&& 0x0F)) ∧
    (unpackH5 .sensor s).toInt =
      sextNat 16 ((sextNat 8 b5.toNat * 16 % 65536).toNat ||| (b4.toNat >>> 4))

/-! ### RAWPARSE (42_rawparse.md) -/

/-- 42_rawparse.md R121, R122, R123: the three fields of the burst, with the document's expressions and the equal
sums, and their ranges. -/
def Obligations.RawparseFields : Prop :=
  ∀ (s : State) (b : Nat → Byte), HoldsBytes s 0xF7 8 b →
    ∃ t, exec .rawparse s = .next t ∧
      t.raw.p.toNat = (b 0).toNat <<< 12 ||| (b 1).toNat <<< 4 ||| (b 2).toNat >>> 4 ∧
      t.raw.p.toNat = (b 0).toNat * 4096 + (b 1).toNat * 16 + (b 2).toNat / 16 ∧
      t.raw.p.toNat ≤ 1048575 ∧
      t.raw.t.toNat = (b 3).toNat <<< 12 ||| (b 4).toNat <<< 4 ||| (b 5).toNat >>> 4 ∧
      t.raw.t.toNat = (b 3).toNat * 4096 + (b 4).toNat * 16 + (b 5).toNat / 16 ∧
      t.raw.t.toNat ≤ 1048575 ∧
      t.raw.h.toNat = (b 6).toNat <<< 8 ||| (b 7).toNat ∧
      t.raw.h.toNat = (b 6).toNat * 256 + (b 7).toNat

/-- 42_rawparse.md R124: for every state, loaded or not, `RAWPARSE` completes with `OK`, sets `raw_valid`, clears
`tf_valid`, and keeps `TFINE`, the coefficients and the outputs. -/
def Obligations.RawparseCompletesAndValidates : Prop :=
  ∀ s : State, ∃ t, exec .rawparse s = .next t ∧ t.status.toInt = 0 ∧ t.rawValid = true ∧
    t.tfValid = false ∧ t.tfine = s.tfine ∧ t.coef = s.coef ∧ t.out = s.out

/-- 10_state.md section 3 (access rights): what `RAWPARSE` leaves unchanged: everything but the raw registers,
`raw_valid`, `tf_valid` and `STATUS`; it stores no byte. -/
def Obligations.RawparseFrame : Prop :=
  ∀ s t : State, exec .rawparse s = .next t →
    t.coef = s.coef ∧ t.tfine = s.tfine ∧ t.out = s.out ∧ t.calValid = s.calValid ∧
    (∀ a, Memory.read t.mem a = Memory.read s.mem a) ∧ t.pending = s.pending

/-- Derived: 42_rawparse.md gives this as an inference of its own (its rule R125). Of a loaded burst, the parse
depends on every bit but the low nibbles of bytes 2 and 5, and on no other: two bursts give the same raw
registers exactly when they agree elsewhere. -/
def Obligations.RawparseIgnoresExactlyTwoNibbles : Prop :=
  ∀ (s s' t t' : State) (b b' : Nat → Byte), HoldsBytes s 0xF7 8 b → HoldsBytes s' 0xF7 8 b' →
    exec .rawparse s = .next t → exec .rawparse s' = .next t' →
    (t.raw = t'.raw ↔
      b 0 = b' 0 ∧ b 1 = b' 1 ∧ (b 2).toNat / 16 = (b' 2).toNat / 16 ∧
      b 3 = b' 3 ∧ b 4 = b' 4 ∧ (b 5).toNat / 16 = (b' 5).toNat / 16 ∧ b 6 = b' 6 ∧ b 7 = b' 7)

/-- 30_encoding.md section 4 and 20_memory.md section 5: the host operations of `LDRAW` bring the eight bytes into
the raw registers, whatever the state before, and change no coefficient and no output. -/
def Obligations.LoadRawReachesRegisters : Prop :=
  ∀ (s : State) (b0 b1 b2 b3 b4 b5 b6 b7 : Byte) (rest : List HostOp),
    s.pending = ldraw [b0, b1, b2, b3, b4, b5, b6, b7] ++ rest →
    ∃ t, Host.Core.run core 9 s = .next t ∧ t.pending = rest ∧ t.answer = .status 0 ∧
      t.rawValid = true ∧ t.coef = s.coef ∧ t.out = s.out ∧ t.tfine = s.tfine ∧
      t.raw.p.toNat = b0.toNat * 4096 + b1.toNat * 16 + b2.toNat / 16 ∧
      t.raw.t.toNat = b3.toNat * 4096 + b4.toNat * 16 + b5.toNat / 16 ∧
      t.raw.h.toNat = b6.toNat * 256 + b7.toNat

/-! ### COMPENSATE (43_compensate.md) -/

/-- 43_compensate.md R132 and 60_exceptions.md R211: with a valid flag clear, `COMPENSATE` of every selector, 0
included, raises `NullReference`: `STATUS` becomes -1 and nothing else changes, not even the outputs. No other
command ends with that status. -/
def Obligations.CompensateWithoutInputsFaults : Prop :=
  (∀ (s : State) (sel : Sel), s.calValid = false ∨ s.rawValid = false →
    exec (.compensate sel) s = .next { s with status := BitVec.ofInt 8 (-1) }) ∧
  ∀ (i : Instr) (s t : State), exec i s = .next t → t.status.toInt = -1 → ∃ sel, i = .compensate sel

/-- 43_compensate.md R131 and R134: the sequence, for every selector. With a valid flag clear the command raises
`NullReference` and nothing else happens. Else the outputs are zeroed; with `sel` not 0 the temperature stage writes
`TFINE`, sets `tf_valid` and gives `OUT_T` by bit 1 or by `TOUT_UNSEL`; bits 0 and 2 run the pressure and the humidity
stage on the `TFINE` just written; the status is `OK`. That a host read then returns the outputs is
`CompensateMakesOutputsReadable`. -/
def Obligations.CompensateFollowsSequence : Prop :=
  (∀ (s : State) (sel : Sel), s.calValid = false ∨ s.rawValid = false →
    exec (.compensate sel) s = .next (raiseFault .nullReference s)) ∧
  ∀ (s : State) (sel : Sel), s.calValid = true → s.rawValid = true →
    ∃ t, exec (.compensate sel) s = .next t ∧ t.status.toInt = 0 ∧
      (sel = 0 → t.tfine = s.tfine ∧ t.tfValid = s.tfValid ∧ t.out.t = 0) ∧
      (sel ≠ 0 → t.tfine = fineTemperature s.raw.t s.coef.t1 s.coef.t2 s.coef.t3 ∧ t.tfValid = true ∧
        t.out.t =
          if sel.getLsbD 1 then temperatureReading t.tfine
          else match Config.toutUnsel with
            | .zero => 0
            | .computed => temperatureReading t.tfine) ∧
      t.out.p = (if sel.getLsbD 0 then stagePressure s.raw.p t.tfine s.coef else 0) ∧
      t.out.h = (if sel.getLsbD 2 then stageHumidity s.raw.h t.tfine s.coef else 0)

/-- 43_compensate.md R136: `COMPENSATE NONE`, after the validity check, zeroes the outputs, runs no stage, keeps
`TFINE` and `tf_valid`, and ends with `OK`. -/
def Obligations.CompensateNoneZeroesOutputs : Prop :=
  ∀ s : State, s.calValid = true → s.rawValid = true →
    ∃ t, exec (.compensate 0) s = .next t ∧ t.out.p = 0 ∧ t.out.t = 0 ∧ t.out.h = 0 ∧
      t.tfine = s.tfine ∧ t.tfValid = s.tfValid ∧ t.status.toInt = 0

/-- Derived: which registers count as written is the model's mark (log entry 5). After a `COMPENSATE` whose check passes,
`NONE` included, the three outputs count as written, and `TFINE` does unless `sel` is 0, where it stays as it was; a host
read of an output then returns the register (47_host_access.md section 3). -/
def Obligations.CompensateMakesOutputsReadable : Prop :=
  ∀ (s : State) (sel : Sel), s.calValid = true → s.rawValid = true →
    ∃ t, exec (.compensate sel) s = .next t ∧
      (∀ n, 22 ≤ n → n ≤ 24 → registerWritten t n = true) ∧
      (sel ≠ 0 → registerWritten t 21 = true) ∧
      (sel = 0 → registerWritten t 21 = registerWritten s 21) ∧
      registerView t 22 = t.out.p ∧ registerView t 23 = t.out.t ∧ registerView t 24 = t.out.h ∧
      (sel ≠ 0 → registerView t 21 = t.tfine)

/-- 43_compensate.md R142: `COMPENSATE` ends with `OK` or with `NullReference` and with no other status, whatever
happens in its arithmetic: `OK` exactly when both valid flags were set. -/
def Obligations.CompensateStatusIsOkOrNullReference : Prop :=
  ∀ (s : State) (sel : Sel), ∃ t, exec (.compensate sel) s = .next t ∧
    (t.status.toInt = 0 ∨ t.status.toInt = -1) ∧
    (t.status.toInt = 0 ↔ s.calValid = true ∧ s.rawValid = true)

/-- 10_state.md section 3 (output ranges) and 40_datapath_arithmetic.md section 3 (the documented bounds): the ranges
of the outputs after a `COMPENSATE` whose check passes, for every coefficient and raw value, also such as no run
reaches, and whatever `TOUT_UNSEL` is. -/
def Obligations.CompensateOutputsStayInRange : Prop :=
  ∀ (s : State) (sel : Sel), s.calValid = true → s.rawValid = true →
    ∃ t, exec (.compensate sel) s = .next t ∧
      (sel.getLsbD 0 = true → 30000 ≤ t.out.p.toNat ∧ t.out.p.toNat ≤ 110000) ∧
      (sel.getLsbD 0 = false → t.out.p.toNat = 0) ∧
      -4000 ≤ t.out.t.toInt ∧ t.out.t.toInt ≤ 8500 ∧ t.out.h.toNat ≤ 102400

/-- Derived: 43_compensate.md gives this as an inference of its own (its rule R140). The value of a selected output
does not depend on what else is selected, and `TFINE` is the same for every selector other than 0. -/
def Obligations.OutputsDoNotDependOnSelector : Prop :=
  ∀ (s t u : State) (sel sel' : Sel), s.calValid = true → s.rawValid = true →
    exec (.compensate sel) s = .next t → exec (.compensate sel') s = .next u →
    (sel.getLsbD 0 = true → sel'.getLsbD 0 = true → t.out.p = u.out.p) ∧
    (sel.getLsbD 1 = true → sel'.getLsbD 1 = true → t.out.t = u.out.t) ∧
    (sel.getLsbD 2 = true → sel'.getLsbD 2 = true → t.out.h = u.out.h) ∧
    (sel ≠ 0 → sel' ≠ 0 → t.tfine = u.tfine)

/-- Derived: 70_reset_and_hazards.md section 3 gives this as an inference of its own (its rule R235). No stage can
read a stale `TFINE`: a `COMPENSATE` that computes anything gives the same result whatever `TFINE`, `tf_valid` and
the outputs held before. -/
def Obligations.StaleTfineIsNeverRead : Prop :=
  ∀ (s : State) (sel : Sel) (v : Word) (o : CompensatedSample) (f : Bool), sel ≠ 0 →
    s.calValid = true → s.rawValid = true →
    exec (.compensate sel) { s with tfine := v, out := o, tfValid := f } = exec (.compensate sel) s

/-- 10_state.md section 3 (access rights): what `COMPENSATE` leaves unchanged, for every selector and whether it
completes or faults: the coefficients, the raw registers, `cal_valid`, `raw_valid` and every buffer byte; and when
it faults, everything but `STATUS`. -/
def Obligations.CompensateFrame : Prop :=
  ∀ (s t : State) (sel : Sel), exec (.compensate sel) s = .next t →
    t.coef = s.coef ∧ t.raw = s.raw ∧ t.calValid = s.calValid ∧ t.rawValid = s.rawValid ∧
    (∀ a, Memory.read t.mem a = Memory.read s.mem a) ∧ t.pending = s.pending ∧
    (t.status.toInt ≠ 0 → t.tfine = s.tfine ∧ t.out = s.out ∧ t.tfValid = s.tfValid)

/-! ### The stages (44, 45, 46), on integers -/

/-- Derived: 44_stage_temperature.md's steps are the spec's own reconstruction (93_implementation_defined.md G1,
log entry 10). The temperature stage on integers, every operation wrapped and every division truncated as the
table of steps says, and the reading clamped. -/
def Obligations.TemperatureStageMatchesSteps : Prop :=
  (∀ (rawT : Word) (t1 t2 t3 : Half),
    let r : Int := rawT.toNat
    let a1 := wrapInt (r / 8 - wrapInt (t1.toNat * 2))
    let var1 := (wrapInt (a1 * t2.toInt)).tdiv 2048
    let a2 := wrapInt (r / 16 - t1.toNat)
    let d2 := (wrapInt (a2 * a2)).tdiv 4096
    let var2 := (wrapInt (d2 * t3.toInt)).tdiv 16384
    (fineTemperature rawT t1 t2 t3).toInt = wrapInt (var1 + var2)) ∧
  ∀ tfine : Word,
    let t0 := (wrapInt (wrapInt (tfine.toInt * 5) + 128)).tdiv 256
    (temperatureReading tfine).toInt = if t0 < -4000 then -4000 else if 8500 < t0 then 8500 else t0

/-- Derived: 45_stage_pressure.md's steps are the spec's own reconstruction (93_implementation_defined.md G1, log
entry 10). The pressure stage on integers, step by step, with the zero-divisor branch and the unsigned clamp. -/
def Obligations.PressureStageMatchesSteps : Prop :=
  ∀ (rawP tfine : Word) (c : Coefficients),
    let h := tfine.toInt.tdiv 2
    let v1 := wrapInt (h - 64000)
    let q := v1.tdiv 4
    let qq := wrapInt (q * q)
    let v2 := wrapInt (qq.tdiv 2048 * c.p6.toInt)
    let v2' := wrapInt (v2 + wrapInt (wrapInt (v1 * c.p5.toInt) * 2))
    let v2'' := wrapInt (v2'.tdiv 4 + wrapInt (c.p4.toInt * 65536))
    let v3 := (wrapInt (c.p3.toInt * qq.tdiv 8192)).tdiv 8
    let v4 := (wrapInt (c.p2.toInt * v1)).tdiv 2
    let v1' := (wrapInt (v3 + v4)).tdiv 262144
    let g := wrapInt (32768 + v1')
    let dv := (wrapInt (g * c.p1.toNat)).tdiv 32768
    let v5 := u32Int (1048576 - rawP.toNat)
    let d := u32Int (v2''.tdiv 4096)
    let p := u32Int (u32Int (v5 - d) * 3125)
    let p' := if p < 0x80000000 then u32Int (p * 2) / u32Int dv else u32Int (p / u32Int dv * 2)
    let e := u32Int (p' / 8 * (p' / 8)) / 8192
    let w1 := (wrapInt (c.p9.toInt * e)).tdiv 4096
    let w2 := (wrapInt (p' / 4 * c.p8.toInt)).tdiv 8192
    let adj := (wrapInt (wrapInt (w1 + w2) + c.p7.toInt)).tdiv 16
    let p'' := u32Int (wrapInt p' + adj)
    ((stagePressure rawP tfine c).toNat : Int) =
      if dv = 0 then 30000 else if p'' < 30000 then 30000 else if 110000 < p'' then 110000 else p''

/-- Derived: 46_stage_humidity.md's steps are the spec's own reconstruction (93_implementation_defined.md G1, log
entry 10). The humidity stage on integers, step by step, with the floor at 0, the ceiling and the final bound, for
the 16-bit raw humidity of 10_state.md R13. -/
def Obligations.HumidityStageMatchesSteps : Prop :=
  ∀ (rawH tfine : Word) (c : Coefficients), rawH.toNat < 2 ^ 16 →
    let v1 := wrapInt (tfine.toInt - 76800)
    let v2 : Int := rawH.toNat * 16384
    let v3 := wrapInt (c.h4.toInt * 1048576)
    let v4 := wrapInt (c.h5.toInt * v1)
    let v5 := (wrapInt (wrapInt (wrapInt (v2 - v3) - v4) + 16384)).tdiv 32768
    let x2 := (wrapInt (v1 * c.h6.toInt)).tdiv 1024
    let x3 := (wrapInt (v1 * c.h3.toNat)).tdiv 2048
    let x4 := wrapInt ((wrapInt (x2 * wrapInt (x3 + 32768))).tdiv 1024 + 2097152)
    let y2 := (wrapInt (wrapInt (x4 * c.h2.toInt) + 8192)).tdiv 16384
    let y3 := wrapInt (v5 * y2)
    let r := y3.tdiv 32768
    let y4 := (wrapInt (r * r)).tdiv 128
    let y5 := wrapInt (y3 - (wrapInt (y4 * c.h1.toNat)).tdiv 16)
    let lim := if y5 < 0 then 0 else if 419430400 < y5 then 419430400 else y5
    ((stageHumidity rawH tfine c).toNat : Int) = lim / 4096

/-- Derived: 45_stage_pressure.md's zero-divisor branch is part of the spec's own reconstruction (log entry 10).
With `P1` = 0 a `COMPENSATE` that selects pressure gives 30000, whatever the other inputs. -/
def Obligations.ZeroPressureDivisorGivesLowerBound : Prop :=
  ∀ (s : State) (sel : Sel), s.calValid = true → s.rawValid = true → sel.getLsbD 0 = true →
    s.coef.p1 = 0 → ∃ t, exec (.compensate sel) s = .next t ∧ t.out.p.toNat = 30000

/-! ### The datapath (40_datapath_arithmetic.md) -/

/-- 40_datapath_arithmetic.md R80: `wrap32(z)` is the unique integer in the signed range congruent to `z` modulo
2^32, and every signed operation returns it of the exact result: the sum, difference and product (R82, R83), and
the quotient by a constant. -/
def Obligations.SignedOperationsWrap : Prop :=
  (∀ z : Int, -2 ^ 31 ≤ (wrap32 z).toInt ∧ (wrap32 z).toInt ≤ 2 ^ 31 - 1 ∧
    (wrap32 z).toInt % 2 ^ 32 = z % 2 ^ 32 ∧
    ∀ r : Int, -2 ^ 31 ≤ r → r ≤ 2 ^ 31 - 1 → r % 2 ^ 32 = z % 2 ^ 32 → r = (wrap32 z).toInt) ∧
  ∀ (a b : Word) (d : Nat), add32 a b = wrap32 (a.toInt + b.toInt) ∧
    sub32 a b = wrap32 (a.toInt - b.toInt) ∧ mul32 a b = wrap32 (a.toInt * b.toInt) ∧
    (0 < d → sdiv a d = wrap32 (a.toInt.tdiv d))

/-- 40_datapath_arithmetic.md section 2 (its rules R86, R87): unsigned addition, subtraction and multiplication return
the exact result modulo 2^32, `shl1` loses no bit below 2^31, and unsigned division rounds down. -/
def Obligations.UnsignedOperationsWrap : Prop :=
  ∀ a b : Word,
    ((addU a b).toNat : Int) = ((a.toNat : Int) + b.toNat) % 2 ^ 32 ∧
    ((subU a b).toNat : Int) = ((a.toNat : Int) - b.toNat) % 2 ^ 32 ∧
    ((mulU a b).toNat : Int) = ((a.toNat : Int) * b.toNat) % 2 ^ 32 ∧
    (a.toNat < 2 ^ 31 → (shl1 a).toNat = a.toNat * 2) ∧
    (b ≠ 0 → (udiv a b).toNat = a.toNat / b.toNat)

/-- 40_datapath_arithmetic.md section 2: signed division by a positive constant truncates toward zero, and its result
always fits. -/
def Obligations.SignedDivisionTruncates : Prop :=
  ∀ (a : Word) (d : Nat), 0 < d →
    (sdiv a d).toInt = if 0 ≤ a.toInt then a.toInt / d else -((-a.toInt) / d)

/-- Derived: 40_datapath_arithmetic.md section 2 gives this as an inference of its own (its rule R85). Division by
2^k is the arithmetic right shift of the 33-bit sum of the dividend and a bias. -/
def Obligations.BiasedShiftIsDivision : Prop :=
  ∀ (a : Word) (k : Nat), 1 ≤ k → k ≤ 30 →
    let bias : BitVec 33 := if a.toInt < 0 then BitVec.ofNat 33 (2 ^ k - 1) else 0
    sdiv a (2 ^ k) = (BitVec.sshiftRight (a.signExtend 33 + bias) k).setWidth 32

/-- Derived: 40_datapath_arithmetic.md section 4 gives this as an inference of its own (its rule R91). Wrapping the
product before the addition gives the wrapped exact result. -/
def Obligations.MultiplyAccumulateMayFuse : Prop :=
  ∀ a b c : Word,
    mac a b c = wrap32 (a.toInt * b.toInt + c.toInt) ∧ msub a b c = wrap32 (c.toInt - a.toInt * b.toInt)

/-- 40_datapath_arithmetic.md section 3: the clamp returns the bound it passed, else the value, by a signed comparison
on an `s32` and an unsigned one on a `u32`. -/
def Obligations.ClampBoundsValue : Prop :=
  (∀ (v : Word) (lo hi : Int), lo ≤ hi → -2 ^ 31 ≤ lo → hi ≤ 2 ^ 31 - 1 →
    (clampS v lo hi).toInt = if v.toInt < lo then lo else if hi < v.toInt then hi else v.toInt) ∧
  ∀ (v : Word) (lo hi : Nat), lo ≤ hi → hi < 2 ^ 32 →
    (clampU v lo hi).toNat = if v.toNat < lo then lo else if hi < v.toNat then hi else v.toNat

/-! ### The invariant -/

/-- The invariant holds at reset. Derived: it takes in the model's marks of written registers (log entry 5), and none of
the reset values that log entry 4 names. -/
def Obligations.ResetMeetsInvariant : Prop :=
  Inv State.reset

/-- Every step from a state that meets the invariant leaves one that meets it, `RESET` included: the buffers stay
canonical; once written since `RESET`, the raw registers, the packed coefficients and the outputs stay in their ranges
(10_state.md sections 2 to 4), and so does `STATUS`; and when `tf_valid` is 1, `TFINE` is what the temperature stage
computes from the current `RAW_T`, `T1`, `T2`, `T3`. Derived: which registers count as written is the model's mark (log
entry 5); no range rests on the reset values of log entry 4, which 10_state.md leaves unspecified; and the ranges of the
raw registers, `H4` and `H5` after a command that read bytes nothing has written rest on log entry 20. -/
def Obligations.StepKeepsInvariant : Prop :=
  ∀ s t : State, Inv s → step s = .next t → Inv t

/-- 10_state.md section 4 (`FLAGS` bit 2) over whole runs: after any number of steps from a state that meets the
invariant, a set `tf_valid` means that `TFINE` belongs to the current raw sample and coefficients. -/
def Obligations.FreshFlagIsTruthfulOnRuns : Prop :=
  ∀ (k : Nat) (s t : State), Inv s → Host.Core.run core k s = .next t → t.tfValid = true →
    t.calValid = true ∧ t.rawValid = true ∧
      t.tfine = fineTemperature t.raw.t t.coef.t1 t.coef.t2 t.coef.t3
end

