-- ==== Sys2Proof/Laws/Datapath.lean ====
section
/-! SUPPORT. One spec lemma per datapath operation (40_datapath_arithmetic.md R80 to R91): its value as an
integer, so that a stage is reasoned about without unfolding the operations. -/

namespace Sys2Proof.Machine

theorem toInt_wrap32 (z : Int) : (wrap32 z).toInt = wrapInt z := by
  simp only [wrap32, BitVec.toInt_ofInt, wrapInt, Int.bmod_def]
  split <;> omega

theorem toInt_u32 (z : Int) : (u32 z).toInt = wrapInt z := toInt_wrap32 z

theorem toNat_u32 (z : Int) : ((u32 z).toNat : Int) = u32Int z := by
  simp only [u32, BitVec.toNat_ofInt, u32Int]
  omega

theorem toNat_wrap32 (z : Int) : ((wrap32 z).toNat : Int) = u32Int z := toNat_u32 z

theorem wrapInt_of_range {z : Int} (h₁ : -2147483648 ≤ z) (h₂ : z ≤ 2147483647) : wrapInt z = z := by
  unfold wrapInt; omega

theorem wrapInt_range (z : Int) : -2147483648 ≤ wrapInt z ∧ wrapInt z ≤ 2147483647 := by
  unfold wrapInt; omega

theorem toInt_range (a : Word) : -2147483648 ≤ a.toInt ∧ a.toInt ≤ 2147483647 := by
  have := a.le_toInt; have := a.toInt_lt; omega

theorem wrap32_toInt (a : Word) : wrap32 a.toInt = a := by
  simp [wrap32]

theorem toInt_add32 (a b : Word) : (add32 a b).toInt = wrapInt (a.toInt + b.toInt) := toInt_wrap32 _

theorem toInt_sub32 (a b : Word) : (sub32 a b).toInt = wrapInt (a.toInt - b.toInt) := toInt_wrap32 _

theorem toInt_mul32 (a b : Word) : (mul32 a b).toInt = wrapInt (a.toInt * b.toInt) := toInt_wrap32 _

/-- `wrap32` of the exact sum is the adder that keeps the low 32 bits. -/
theorem add32_eq (a b : Word) : add32 a b = a + b := by
  simp [add32, wrap32, BitVec.ofInt_add]

theorem sub32_eq (a b : Word) : sub32 a b = a - b := by
  simp [sub32, wrap32, Int.sub_eq_add_neg, BitVec.ofInt_add, BitVec.ofInt_neg, BitVec.sub_eq_add_neg]

theorem mul32_eq (a b : Word) : mul32 a b = a * b := by
  simp [mul32, wrap32, BitVec.ofInt_mul]

/-- A quotient by a positive constant fits, so `sdiv` is the exact truncated quotient. -/
theorem toInt_sdiv (a : Word) {d : Nat} (hd : 0 < d) : (sdiv a d).toInt = a.toInt.tdiv d := by
  have h := toInt_range a
  have hq : -2147483648 ≤ a.toInt.tdiv d ∧ a.toInt.tdiv d ≤ 2147483647 := by
    have hd' : (1 : Int) ≤ d := by exact_mod_cast hd
    rcases Int.le_total 0 a.toInt with h0 | h0
    · have h1 : 0 ≤ a.toInt.tdiv d := Int.tdiv_nonneg h0 (by omega)
      have h2 : a.toInt.tdiv d ≤ a.toInt := Int.tdiv_le_self d h0
      omega
    · have h1 : 0 ≤ (-a.toInt).tdiv d := Int.tdiv_nonneg (by omega) (by omega)
      have h2 : (-a.toInt).tdiv d ≤ -a.toInt := Int.tdiv_le_self d (by omega)
      rw [Int.neg_tdiv] at h1 h2
      omega
  rw [sdiv, toInt_wrap32, wrapInt_of_range hq.1 hq.2]

theorem toNat_udiv (a : Word) {b : Word} (hb : b ≠ 0) : (udiv a b).toNat = a.toNat / b.toNat := by
  rw [udiv, if_neg hb, BitVec.toNat_ofNat]
  exact Nat.mod_eq_of_lt (Nat.lt_of_le_of_lt (Nat.div_le_self _ _) a.isLt)

theorem toNat_addU (a b : Word) : ((addU a b).toNat : Int) = u32Int (a.toNat + b.toNat) := toNat_u32 _

/-- Signed and unsigned addition give the same bits (40_datapath_arithmetic.md R82, R87). -/
theorem addU_eq_add32 (a b : Word) : addU a b = add32 a b := by
  rw [add32_eq]
  simp [addU, u32, BitVec.ofInt_add]

theorem toNat_subU (a b : Word) : ((subU a b).toNat : Int) = u32Int (a.toNat - b.toNat) := toNat_u32 _

theorem toNat_mulU (a b : Word) : ((mulU a b).toNat : Int) = u32Int (a.toNat * b.toNat) := toNat_u32 _

theorem toNat_shl1 (p : Word) : ((shl1 p).toNat : Int) = u32Int (p.toNat * 2) := toNat_u32 _

/-- A word below 2^31 reads alike as `s32` and as `u32` (40_datapath_arithmetic.md R81). -/
theorem toInt_of_small {a : Word} (h : a.toNat < 2147483648) : a.toInt = a.toNat := by
  rw [BitVec.toInt_eq_toNat_of_lt (by omega)]

/-- The two readings of a word (40_datapath_arithmetic.md R81). -/
theorem toInt_eq_wrapInt_toNat (a : Word) : a.toInt = wrapInt a.toNat := by
  have h := a.isLt
  rw [BitVec.toInt_eq_toNat_cond, wrapInt]
  split <;> omega

/-- The signed clamp lands in its bounds (40_datapath_arithmetic.md R89). -/
theorem toInt_clampS {lo hi : Int} (v : Word) (h : lo ≤ hi) (h₁ : -2147483648 ≤ lo) (h₂ : hi ≤ 2147483647) :
    (clampS v lo hi).toInt = if v.toInt < lo then lo else if hi < v.toInt then hi else v.toInt := by
  unfold clampS
  split
  · rw [toInt_wrap32, wrapInt_of_range h₁ (by omega)]
  · split
    · rw [toInt_wrap32, wrapInt_of_range (by omega) h₂]
    · rfl

/-- The unsigned clamp lands in its bounds (40_datapath_arithmetic.md R89). -/
theorem toNat_clampU {lo hi : Nat} (v : Word) (h : lo ≤ hi) (h₂ : hi < 4294967296) :
    (clampU v lo hi).toNat = if v.toNat < lo then lo else if hi < v.toNat then hi else v.toNat := by
  have key : ∀ n : Nat, n < 4294967296 → (u32 n).toNat = n := fun n hn => by
    have := toNat_u32 n
    unfold u32Int at this
    omega
  unfold clampU
  split
  · exact key lo (by omega)
  · split
    · exact key hi h₂
    · rfl

theorem toNat_zextIn {n : Nat} (hn : n ≤ 32) (v : BitVec n) : (zextIn v).toNat = v.toNat := by
  rw [zextIn, BitVec.toNat_setWidth]
  exact Nat.mod_eq_of_lt (Nat.lt_of_lt_of_le v.isLt (Nat.pow_le_pow_right (by decide) hn))

theorem toInt_zextIn {n : Nat} (hn : n < 32) (v : BitVec n) : (zextIn v).toInt = v.toNat := by
  have h := toNat_zextIn (Nat.le_of_lt hn) v
  rw [toInt_of_small, h]
  rw [h]
  exact Nat.lt_of_lt_of_le v.isLt (Nat.pow_le_pow_right (by decide) (show n ≤ 31 by omega))

theorem toInt_sextIn {n : Nat} (hn : n ≤ 32) (v : BitVec n) : (sextIn v).toInt = v.toInt := by
  rw [sextIn]
  exact BitVec.toInt_signExtend_of_le hn

end Sys2Proof.Machine
end

