-- ==== Sys2Proof/Laws/Memory.lean ====
section
/-! SUPPORT. What a buffer write and a buffer read do (20_memory.md R47), and that every write keeps the
canonical form. -/

namespace Sys2Proof.Machine

/-- A read after a write: the byte written at that address, the old byte at every other. -/
theorem memory_read_write (m : Memory) (a : Nat) (b : Byte) (x : Nat) :
    Memory.read (Memory.write m a b) x = if x = a then some b else Memory.read m x := by
  induction m with
  | nil => simp [Memory.write, Memory.read, eq_comm]
  | cons c m ih =>
    obtain ⟨k, v⟩ := c
    simp only [Memory.write]
    split
    · simp only [Memory.read, eq_comm (a := a)]
    · split
      · subst a
        simp only [Memory.read, eq_comm (a := k)]
        by_cases h : x = k <;> simp [h]
      · simp only [Memory.read, ih]
        by_cases h : k = x
        · subst h; simp_all [eq_comm]
        · simp [h]

@[simp] theorem memory_read_write_same (m : Memory) (a : Nat) (b : Byte) :
    Memory.read (Memory.write m a b) a = some b := by
  simp [memory_read_write]

theorem memory_read_write_other (m : Memory) {a x : Nat} (b : Byte) (h : x ≠ a) :
    Memory.read (Memory.write m a b) x = Memory.read m x := by
  simp [memory_read_write, h]

/-- A cell of the written memory is the cell written or an old one. -/
theorem memory_mem_write {m : Memory} {a : Nat} {b : Byte} {c : Host.Cell}
    (h : c ∈ Memory.write m a b) : c = (a, b) ∨ c ∈ m := by
  induction m with
  | nil => simpa [Memory.write] using h
  | cons d m ih =>
    obtain ⟨k, v⟩ := d
    simp only [Memory.write] at h
    split at h
    · simpa using h
    · split at h
      · rcases List.mem_cons.1 h with h | h
        · exact .inl h
        · exact .inr (List.mem_cons_of_mem _ h)
      · rcases List.mem_cons.1 h with h | h
        · exact .inr (h ▸ List.mem_cons_self)
        · exact (ih h).imp id (List.mem_cons_of_mem _)

/-- The one memory operation that changes the buffers keeps the canonical form. -/
theorem memory_write_wf {m : Memory} {a : Nat} (b : Byte) (hm : Memory.wf m) (ha : mapped a = true) :
    Memory.wf (Memory.write m a b) := by
  refine ⟨?_, fun c hc => ?_⟩
  · have hp := hm.1
    clear hm ha
    induction m with
    | nil => simp [Memory.write]
    | cons d m ih =>
      obtain ⟨k, v⟩ := d
      obtain ⟨hk, hm⟩ := List.pairwise_cons.1 hp
      simp only [Memory.write]
      split
      · rename_i h
        refine List.pairwise_cons.2 ⟨fun c hc => ?_, hp⟩
        rcases List.mem_cons.1 hc with rfl | hc
        · exact h
        · exact h.trans (hk c hc)
      · split
        · rename_i h; subst h
          exact List.pairwise_cons.2 ⟨hk, hm⟩
        · rename_i h1 h2
          refine List.pairwise_cons.2 ⟨fun c hc => ?_, ih hm⟩
          rcases memory_mem_write hc with rfl | hc
          · simp only; omega
          · exact hk c hc
  · rcases memory_mem_write hc with rfl | hc
    · exact ha
    · exact hm.2 c hc

theorem memory_reset_wf : Memory.wf State.reset.mem := by decide

theorem memory_read_none_of_lt {m : Memory} {a : Nat} (h : ∀ c ∈ m, a < c.1) :
    Memory.read m a = none := by
  induction m with
  | nil => rfl
  | cons c m ih =>
    obtain ⟨k, v⟩ := c
    have hk : a < k := h (k, v) List.mem_cons_self
    simp only [Memory.read, if_neg (Nat.ne_of_gt hk)]
    exact ih fun c hc => h c (List.mem_cons_of_mem _ hc)

/-- Equal memories are equal data: two canonical memories that read alike everywhere are one list. -/
theorem memory_ext {m n : Memory} (hm : Memory.wf m) (hn : Memory.wf n)
    (h : ∀ a, Memory.read m a = Memory.read n a) : m = n := by
  replace hm := hm.1
  replace hn := hn.1
  induction m generalizing n with
  | nil =>
    cases n with
    | nil => rfl
    | cons c n => obtain ⟨k, v⟩ := c; simpa [Memory.read] using h k
  | cons c m ih =>
    obtain ⟨k, v⟩ := c
    obtain ⟨hk, hm'⟩ := List.pairwise_cons.1 hm
    cases n with
    | nil => simpa [Memory.read] using h k
    | cons d n =>
      obtain ⟨l, w⟩ := d
      obtain ⟨hl, hn'⟩ := List.pairwise_cons.1 hn
      have key : k = l := by
        rcases Nat.lt_trichotomy k l with hlt | heq | hgt
        · have := h k
          simp only [Memory.read, if_true, if_neg (Nat.ne_of_gt hlt)] at this
          rw [memory_read_none_of_lt fun c hc => hlt.trans (hl c hc)] at this
          cases this
        · exact heq
        · have := h l
          simp only [Memory.read, if_true, if_neg (Nat.ne_of_gt hgt)] at this
          rw [memory_read_none_of_lt fun c hc => Nat.lt_trans hgt (hk c hc)] at this
          cases this
      subst key
      have hv : v = w := by simpa [Memory.read] using h k
      subst hv
      congr 1
      refine ih (fun a => ?_) hm' hn'
      by_cases ha : k = a
      · subst ha
        rw [memory_read_none_of_lt hk, memory_read_none_of_lt hl]
      · simpa [Memory.read, ha] using h a

/-- A command sees the byte the host wrote. -/
theorem commandByte_of_holds {s : State} {a : Nat} {b : Byte} (h : HoldsByte s a b) :
    commandByte s a = b := by
  simp [commandByte, h]

end Sys2Proof.Machine
end

