-- ==== Sys2Proof/Laws/Operands.lean ====
section
/-! SUPPORT. The numbers that the operand forms stand for: little-endian pairs, the packed 12-bit values and the
fields of the burst, as integers. -/

namespace Sys2Proof.Machine

theorem toNat_le16 (lo hi : Byte) : (le16 lo hi).toNat = hi.toNat * 256 + lo.toNat := by
  have := lo.isLt; have := hi.isLt
  rw [le16, BitVec.toNat_ofNat]
  omega

theorem toInt_le16 (lo hi : Byte) : (le16 lo hi).toInt = sextNat 16 (hi.toNat * 256 + lo.toNat) := by
  rw [BitVec.toInt_eq_toNat_cond, toNat_le16, sextNat]
  split <;> split <;> omega

theorem toInt_byte (b : Byte) : b.toInt = sextNat 8 b.toNat := by
  rw [BitVec.toInt_eq_toNat_cond, sextNat]
  split <;> split <;> omega

/-- Or-ing a nibble into the empty low bits adds it (41_calunpack.md R106). -/
theorem packed12_eq_add (high : Byte) (nibble : Half) (h : nibble.toNat < 16) :
    packed12 high nibble = BitVec.ofInt 16 (high.toInt * 16) + nibble := by
  have hn : nibble = (nibble.setWidth 4).setWidth 16 := by
    apply BitVec.eq_of_toNat_eq
    simp only [BitVec.toNat_setWidth]
    omega
  have key : ∀ (b : BitVec 8) (n : BitVec 4),
      BitVec.ofInt 16 (b.toInt * 16) ||| n.setWidth 16 = BitVec.ofInt 16 (b.toInt * 16) + n.setWidth 16 := by
    intro b n
    rw [BitVec.ofInt_mul]
    have hb : BitVec.ofInt 16 b.toInt = b.signExtend 16 := rfl
    rw [hb]
    refine (BitVec.add_eq_or_of_and_eq_zero _ _ ?_).symm
    have h16 : b.signExtend 16 * BitVec.ofInt 16 16 = b.signExtend 16 <<< 4 := by
      rw [BitVec.shiftLeft_eq_mul_twoPow]; rfl
    rw [h16]
    apply BitVec.eq_of_getLsbD_eq
    intro i hi
    by_cases h4 : i < 4
    · simp [h4]
    · simp [BitVec.getLsbD_of_ge n i (by omega)]
  rw [packed12, hn, key]

theorem toInt_packed12 (high : Byte) (nibble : Half) (h : nibble.toNat < 16) :
    (packed12 high nibble).toInt = high.toInt * 16 + nibble.toNat := by
  have h1 := high.le_toInt
  have h2 := high.toInt_lt
  have h3 : nibble.toInt = nibble.toNat := BitVec.toInt_eq_toNat_of_lt (by omega)
  rw [packed12_eq_add high nibble h, BitVec.toInt_add, BitVec.toInt_ofInt, h3]
  simp only [Int.bmod_def]
  norm_num at h1 h2 ⊢
  split <;> split <;> omega

theorem toNat_lowNibble (b : Byte) : (lowNibble b).toNat = b.toNat % 16 := by
  rw [lowNibble, BitVec.toNat_ofNat]; omega

theorem toNat_highNibble (b : Byte) : (highNibble b).toNat = b.toNat / 16 := by
  have := b.isLt
  rw [highNibble, BitVec.toNat_ofNat]; omega

theorem lowNibble_lt (b : Byte) : (lowNibble b).toNat < 16 := by
  rw [toNat_lowNibble]; omega

theorem highNibble_lt (b : Byte) : (highNibble b).toNat < 16 := by
  have := b.isLt
  rw [toNat_highNibble]; omega

theorem toNat_shiftUp (b : Byte) {k : Nat} (hk : k ≤ 16) : (b.setWidth 32 <<< k).toNat = b.toNat * 2 ^ k := by
  have h1 := b.isLt
  have h2 : 2 ^ k ≤ 2 ^ 16 := Nat.pow_le_pow_right (by decide) hk
  have h3 : b.toNat * 2 ^ k < 2 ^ 32 := by
    calc b.toNat * 2 ^ k ≤ 2 ^ 8 * 2 ^ 16 := Nat.mul_le_mul (by omega) h2
      _ < 2 ^ 32 := by decide
  have h4 : b.toNat % 2 ^ 32 = b.toNat := Nat.mod_eq_of_lt (by omega)
  rw [BitVec.toNat_shiftLeft, BitVec.toNat_setWidth, h4, Nat.shiftLeft_eq, Nat.mod_eq_of_lt h3]

theorem toNat_burst20 (b0 b1 b2 : Byte) :
    (burst20 b0 b1 b2).toNat = b0.toNat * 4096 + b1.toNat * 16 + b2.toNat / 16 := by
  have h0 := b0.isLt; have h1 := b1.isLt; have h2 := b2.isLt
  have hlow : (b2.setWidth 32 >>> 4).toNat = b2.toNat / 16 := by
    rw [BitVec.toNat_ushiftRight, BitVec.toNat_setWidth, Nat.mod_eq_of_lt (by omega), Nat.shiftRight_eq_div_pow]
  rw [burst20, BitVec.toNat_or, BitVec.toNat_or, hlow, toNat_shiftUp b0 (by decide),
    toNat_shiftUp b1 (by decide)]
  have e1 : b0.toNat * 2 ^ 12 ||| b1.toNat * 2 ^ 4 = b0.toNat * 2 ^ 12 + b1.toNat * 2 ^ 4 := by
    rw [Nat.mul_comm b0.toNat]
    exact (Nat.two_pow_add_eq_or_of_lt (show b1.toNat * 2 ^ 4 < 2 ^ 12 by omega) b0.toNat).symm
  rw [e1, show b0.toNat * 2 ^ 12 + b1.toNat * 2 ^ 4 = 2 ^ 4 * (b0.toNat * 2 ^ 8 + b1.toNat) by omega,
    ← Nat.two_pow_add_eq_or_of_lt (show b2.toNat / 16 < 2 ^ 4 by omega)]
  omega

theorem toNat_burst16 (b0 b1 : Byte) : (burst16 b0 b1).toNat = b0.toNat * 256 + b1.toNat := by
  have h0 := b0.isLt; have h1 := b1.isLt
  rw [burst16, BitVec.toNat_or, toNat_shiftUp b0 (by decide), BitVec.toNat_setWidth,
    Nat.mod_eq_of_lt (by omega), Nat.mul_comm b0.toNat,
    ← Nat.two_pow_add_eq_or_of_lt (show b1.toNat < 2 ^ 8 by omega)]
  omega

end Sys2Proof.Machine
end

