-- ==== Sys2Proof/Laws/State.lean ====
section
/-! SUPPORT. One lemma per field per named update of State, true by unfolding once here, so that no later proof
unfolds a record update. -/

namespace Sys2Proof.Machine

variable (s : State)

/-! ### withStatus -/

@[simp] theorem withStatus_coef (c : Byte) : (withStatus s c).coef = s.coef := rfl
@[simp] theorem withStatus_raw (c : Byte) : (withStatus s c).raw = s.raw := rfl
@[simp] theorem withStatus_tfine (c : Byte) : (withStatus s c).tfine = s.tfine := rfl
@[simp] theorem withStatus_out (c : Byte) : (withStatus s c).out = s.out := rfl
@[simp] theorem withStatus_status (c : Byte) : (withStatus s c).status = c := rfl
@[simp] theorem withStatus_calValid (c : Byte) : (withStatus s c).calValid = s.calValid := rfl
@[simp] theorem withStatus_rawValid (c : Byte) : (withStatus s c).rawValid = s.rawValid := rfl
@[simp] theorem withStatus_tfValid (c : Byte) : (withStatus s c).tfValid = s.tfValid := rfl
@[simp] theorem withStatus_mem (c : Byte) : (withStatus s c).mem = s.mem := rfl
@[simp] theorem withStatus_tfineWritten (c : Byte) : (withStatus s c).tfineWritten = s.tfineWritten := rfl
@[simp] theorem withStatus_outWritten (c : Byte) : (withStatus s c).outWritten = s.outWritten := rfl
@[simp] theorem withStatus_epoch (c : Byte) : (withStatus s c).epoch = s.epoch := rfl
@[simp] theorem withStatus_hostReads (c : Byte) : (withStatus s c).hostReads = s.hostReads := rfl
@[simp] theorem withStatus_pending (c : Byte) : (withStatus s c).pending = s.pending := rfl
@[simp] theorem withStatus_answer (c : Byte) : (withStatus s c).answer = s.answer := rfl

/-! ### withCoefficients -/

@[simp] theorem withCoefficients_coef (c : Coefficients) : (withCoefficients s c).coef = c := rfl
@[simp] theorem withCoefficients_raw (c : Coefficients) : (withCoefficients s c).raw = s.raw := rfl
@[simp] theorem withCoefficients_tfine (c : Coefficients) : (withCoefficients s c).tfine = s.tfine := rfl
@[simp] theorem withCoefficients_out (c : Coefficients) : (withCoefficients s c).out = s.out := rfl
@[simp] theorem withCoefficients_status (c : Coefficients) : (withCoefficients s c).status = s.status := rfl
@[simp] theorem withCoefficients_calValid (c : Coefficients) : (withCoefficients s c).calValid = s.calValid := rfl
@[simp] theorem withCoefficients_rawValid (c : Coefficients) : (withCoefficients s c).rawValid = s.rawValid := rfl
@[simp] theorem withCoefficients_tfValid (c : Coefficients) : (withCoefficients s c).tfValid = s.tfValid := rfl
@[simp] theorem withCoefficients_mem (c : Coefficients) : (withCoefficients s c).mem = s.mem := rfl
@[simp] theorem withCoefficients_tfineWritten (c : Coefficients) : (withCoefficients s c).tfineWritten = s.tfineWritten := rfl
@[simp] theorem withCoefficients_outWritten (c : Coefficients) : (withCoefficients s c).outWritten = s.outWritten := rfl
@[simp] theorem withCoefficients_epoch (c : Coefficients) : (withCoefficients s c).epoch = s.epoch := rfl
@[simp] theorem withCoefficients_hostReads (c : Coefficients) : (withCoefficients s c).hostReads = s.hostReads := rfl
@[simp] theorem withCoefficients_pending (c : Coefficients) : (withCoefficients s c).pending = s.pending := rfl
@[simp] theorem withCoefficients_answer (c : Coefficients) : (withCoefficients s c).answer = s.answer := rfl

/-! ### withRaw -/

@[simp] theorem withRaw_coef (r : RawSample) : (withRaw s r).coef = s.coef := rfl
@[simp] theorem withRaw_raw (r : RawSample) : (withRaw s r).raw = r := rfl
@[simp] theorem withRaw_tfine (r : RawSample) : (withRaw s r).tfine = s.tfine := rfl
@[simp] theorem withRaw_out (r : RawSample) : (withRaw s r).out = s.out := rfl
@[simp] theorem withRaw_status (r : RawSample) : (withRaw s r).status = s.status := rfl
@[simp] theorem withRaw_calValid (r : RawSample) : (withRaw s r).calValid = s.calValid := rfl
@[simp] theorem withRaw_rawValid (r : RawSample) : (withRaw s r).rawValid = s.rawValid := rfl
@[simp] theorem withRaw_tfValid (r : RawSample) : (withRaw s r).tfValid = s.tfValid := rfl
@[simp] theorem withRaw_mem (r : RawSample) : (withRaw s r).mem = s.mem := rfl
@[simp] theorem withRaw_tfineWritten (r : RawSample) : (withRaw s r).tfineWritten = s.tfineWritten := rfl
@[simp] theorem withRaw_outWritten (r : RawSample) : (withRaw s r).outWritten = s.outWritten := rfl
@[simp] theorem withRaw_epoch (r : RawSample) : (withRaw s r).epoch = s.epoch := rfl
@[simp] theorem withRaw_hostReads (r : RawSample) : (withRaw s r).hostReads = s.hostReads := rfl
@[simp] theorem withRaw_pending (r : RawSample) : (withRaw s r).pending = s.pending := rfl
@[simp] theorem withRaw_answer (r : RawSample) : (withRaw s r).answer = s.answer := rfl

/-! ### withTfine -/

@[simp] theorem withTfine_coef (v : Word) : (withTfine s v).coef = s.coef := rfl
@[simp] theorem withTfine_raw (v : Word) : (withTfine s v).raw = s.raw := rfl
@[simp] theorem withTfine_tfine (v : Word) : (withTfine s v).tfine = v := rfl
@[simp] theorem withTfine_out (v : Word) : (withTfine s v).out = s.out := rfl
@[simp] theorem withTfine_status (v : Word) : (withTfine s v).status = s.status := rfl
@[simp] theorem withTfine_calValid (v : Word) : (withTfine s v).calValid = s.calValid := rfl
@[simp] theorem withTfine_rawValid (v : Word) : (withTfine s v).rawValid = s.rawValid := rfl
@[simp] theorem withTfine_tfValid (v : Word) : (withTfine s v).tfValid = s.tfValid := rfl
@[simp] theorem withTfine_mem (v : Word) : (withTfine s v).mem = s.mem := rfl
@[simp] theorem withTfine_tfineWritten (v : Word) : (withTfine s v).tfineWritten = true := rfl
@[simp] theorem withTfine_outWritten (v : Word) : (withTfine s v).outWritten = s.outWritten := rfl
@[simp] theorem withTfine_epoch (v : Word) : (withTfine s v).epoch = s.epoch := rfl
@[simp] theorem withTfine_hostReads (v : Word) : (withTfine s v).hostReads = s.hostReads := rfl
@[simp] theorem withTfine_pending (v : Word) : (withTfine s v).pending = s.pending := rfl
@[simp] theorem withTfine_answer (v : Word) : (withTfine s v).answer = s.answer := rfl

/-! ### withOutputs -/

@[simp] theorem withOutputs_coef (o : CompensatedSample) : (withOutputs s o).coef = s.coef := rfl
@[simp] theorem withOutputs_raw (o : CompensatedSample) : (withOutputs s o).raw = s.raw := rfl
@[simp] theorem withOutputs_tfine (o : CompensatedSample) : (withOutputs s o).tfine = s.tfine := rfl
@[simp] theorem withOutputs_out (o : CompensatedSample) : (withOutputs s o).out = o := rfl
@[simp] theorem withOutputs_status (o : CompensatedSample) : (withOutputs s o).status = s.status := rfl
@[simp] theorem withOutputs_calValid (o : CompensatedSample) : (withOutputs s o).calValid = s.calValid := rfl
@[simp] theorem withOutputs_rawValid (o : CompensatedSample) : (withOutputs s o).rawValid = s.rawValid := rfl
@[simp] theorem withOutputs_tfValid (o : CompensatedSample) : (withOutputs s o).tfValid = s.tfValid := rfl
@[simp] theorem withOutputs_mem (o : CompensatedSample) : (withOutputs s o).mem = s.mem := rfl
@[simp] theorem withOutputs_tfineWritten (o : CompensatedSample) : (withOutputs s o).tfineWritten = s.tfineWritten := rfl
@[simp] theorem withOutputs_outWritten (o : CompensatedSample) : (withOutputs s o).outWritten = true := rfl
@[simp] theorem withOutputs_epoch (o : CompensatedSample) : (withOutputs s o).epoch = s.epoch := rfl
@[simp] theorem withOutputs_hostReads (o : CompensatedSample) : (withOutputs s o).hostReads = s.hostReads := rfl
@[simp] theorem withOutputs_pending (o : CompensatedSample) : (withOutputs s o).pending = s.pending := rfl
@[simp] theorem withOutputs_answer (o : CompensatedSample) : (withOutputs s o).answer = s.answer := rfl

/-! ### withMemory -/

@[simp] theorem withMemory_coef (m : Memory) : (withMemory s m).coef = s.coef := rfl
@[simp] theorem withMemory_raw (m : Memory) : (withMemory s m).raw = s.raw := rfl
@[simp] theorem withMemory_tfine (m : Memory) : (withMemory s m).tfine = s.tfine := rfl
@[simp] theorem withMemory_out (m : Memory) : (withMemory s m).out = s.out := rfl
@[simp] theorem withMemory_status (m : Memory) : (withMemory s m).status = s.status := rfl
@[simp] theorem withMemory_calValid (m : Memory) : (withMemory s m).calValid = s.calValid := rfl
@[simp] theorem withMemory_rawValid (m : Memory) : (withMemory s m).rawValid = s.rawValid := rfl
@[simp] theorem withMemory_tfValid (m : Memory) : (withMemory s m).tfValid = s.tfValid := rfl
@[simp] theorem withMemory_mem (m : Memory) : (withMemory s m).mem = m := rfl
@[simp] theorem withMemory_tfineWritten (m : Memory) : (withMemory s m).tfineWritten = s.tfineWritten := rfl
@[simp] theorem withMemory_outWritten (m : Memory) : (withMemory s m).outWritten = s.outWritten := rfl
@[simp] theorem withMemory_epoch (m : Memory) : (withMemory s m).epoch = s.epoch + 1 := rfl
@[simp] theorem withMemory_hostReads (m : Memory) : (withMemory s m).hostReads = s.hostReads := rfl
@[simp] theorem withMemory_pending (m : Memory) : (withMemory s m).pending = s.pending := rfl
@[simp] theorem withMemory_answer (m : Memory) : (withMemory s m).answer = s.answer := rfl

/-! ### withAnswer -/

@[simp] theorem withAnswer_coef (a : HostAnswer) : (withAnswer s a).coef = s.coef := rfl
@[simp] theorem withAnswer_raw (a : HostAnswer) : (withAnswer s a).raw = s.raw := rfl
@[simp] theorem withAnswer_tfine (a : HostAnswer) : (withAnswer s a).tfine = s.tfine := rfl
@[simp] theorem withAnswer_out (a : HostAnswer) : (withAnswer s a).out = s.out := rfl
@[simp] theorem withAnswer_status (a : HostAnswer) : (withAnswer s a).status = s.status := rfl
@[simp] theorem withAnswer_calValid (a : HostAnswer) : (withAnswer s a).calValid = s.calValid := rfl
@[simp] theorem withAnswer_rawValid (a : HostAnswer) : (withAnswer s a).rawValid = s.rawValid := rfl
@[simp] theorem withAnswer_tfValid (a : HostAnswer) : (withAnswer s a).tfValid = s.tfValid := rfl
@[simp] theorem withAnswer_mem (a : HostAnswer) : (withAnswer s a).mem = s.mem := rfl
@[simp] theorem withAnswer_tfineWritten (a : HostAnswer) : (withAnswer s a).tfineWritten = s.tfineWritten := rfl
@[simp] theorem withAnswer_outWritten (a : HostAnswer) : (withAnswer s a).outWritten = s.outWritten := rfl
@[simp] theorem withAnswer_epoch (a : HostAnswer) : (withAnswer s a).epoch = s.epoch := rfl
@[simp] theorem withAnswer_hostReads (a : HostAnswer) : (withAnswer s a).hostReads = s.hostReads := rfl
@[simp] theorem withAnswer_pending (a : HostAnswer) : (withAnswer s a).pending = s.pending := rfl
@[simp] theorem withAnswer_answer (a : HostAnswer) : (withAnswer s a).answer = a := rfl

/-! ### withPending -/

@[simp] theorem withPending_coef (ops : List HostOp) : (withPending s ops).coef = s.coef := rfl
@[simp] theorem withPending_raw (ops : List HostOp) : (withPending s ops).raw = s.raw := rfl
@[simp] theorem withPending_tfine (ops : List HostOp) : (withPending s ops).tfine = s.tfine := rfl
@[simp] theorem withPending_out (ops : List HostOp) : (withPending s ops).out = s.out := rfl
@[simp] theorem withPending_status (ops : List HostOp) : (withPending s ops).status = s.status := rfl
@[simp] theorem withPending_calValid (ops : List HostOp) : (withPending s ops).calValid = s.calValid := rfl
@[simp] theorem withPending_rawValid (ops : List HostOp) : (withPending s ops).rawValid = s.rawValid := rfl
@[simp] theorem withPending_tfValid (ops : List HostOp) : (withPending s ops).tfValid = s.tfValid := rfl
@[simp] theorem withPending_mem (ops : List HostOp) : (withPending s ops).mem = s.mem := rfl
@[simp] theorem withPending_tfineWritten (ops : List HostOp) : (withPending s ops).tfineWritten = s.tfineWritten := rfl
@[simp] theorem withPending_outWritten (ops : List HostOp) : (withPending s ops).outWritten = s.outWritten := rfl
@[simp] theorem withPending_epoch (ops : List HostOp) : (withPending s ops).epoch = s.epoch := rfl
@[simp] theorem withPending_hostReads (ops : List HostOp) : (withPending s ops).hostReads = s.hostReads := rfl
@[simp] theorem withPending_pending (ops : List HostOp) : (withPending s ops).pending = ops := rfl
@[simp] theorem withPending_answer (ops : List HostOp) : (withPending s ops).answer = s.answer := rfl

/-! ### countHostRead -/

@[simp] theorem countHostRead_coef : (countHostRead s).coef = s.coef := rfl
@[simp] theorem countHostRead_raw : (countHostRead s).raw = s.raw := rfl
@[simp] theorem countHostRead_tfine : (countHostRead s).tfine = s.tfine := rfl
@[simp] theorem countHostRead_out : (countHostRead s).out = s.out := rfl
@[simp] theorem countHostRead_status : (countHostRead s).status = s.status := rfl
@[simp] theorem countHostRead_calValid : (countHostRead s).calValid = s.calValid := rfl
@[simp] theorem countHostRead_rawValid : (countHostRead s).rawValid = s.rawValid := rfl
@[simp] theorem countHostRead_tfValid : (countHostRead s).tfValid = s.tfValid := rfl
@[simp] theorem countHostRead_mem : (countHostRead s).mem = s.mem := rfl
@[simp] theorem countHostRead_tfineWritten : (countHostRead s).tfineWritten = s.tfineWritten := rfl
@[simp] theorem countHostRead_outWritten : (countHostRead s).outWritten = s.outWritten := rfl
@[simp] theorem countHostRead_epoch : (countHostRead s).epoch = s.epoch := rfl
@[simp] theorem countHostRead_hostReads : (countHostRead s).hostReads = s.hostReads + 1 := rfl
@[simp] theorem countHostRead_pending : (countHostRead s).pending = s.pending := rfl
@[simp] theorem countHostRead_answer : (countHostRead s).answer = s.answer := rfl

/-! ### raiseFault -/

@[simp] theorem raiseFault_coef (e : CommandFault) : (raiseFault e s).coef = s.coef := rfl
@[simp] theorem raiseFault_raw (e : CommandFault) : (raiseFault e s).raw = s.raw := rfl
@[simp] theorem raiseFault_tfine (e : CommandFault) : (raiseFault e s).tfine = s.tfine := rfl
@[simp] theorem raiseFault_out (e : CommandFault) : (raiseFault e s).out = s.out := rfl
@[simp] theorem raiseFault_status (e : CommandFault) : (raiseFault e s).status = faultCode e := rfl
@[simp] theorem raiseFault_calValid (e : CommandFault) : (raiseFault e s).calValid = s.calValid := rfl
@[simp] theorem raiseFault_rawValid (e : CommandFault) : (raiseFault e s).rawValid = s.rawValid := rfl
@[simp] theorem raiseFault_tfValid (e : CommandFault) : (raiseFault e s).tfValid = s.tfValid := rfl
@[simp] theorem raiseFault_mem (e : CommandFault) : (raiseFault e s).mem = s.mem := rfl
@[simp] theorem raiseFault_tfineWritten (e : CommandFault) : (raiseFault e s).tfineWritten = s.tfineWritten := rfl
@[simp] theorem raiseFault_outWritten (e : CommandFault) : (raiseFault e s).outWritten = s.outWritten := rfl
@[simp] theorem raiseFault_epoch (e : CommandFault) : (raiseFault e s).epoch = s.epoch := rfl
@[simp] theorem raiseFault_hostReads (e : CommandFault) : (raiseFault e s).hostReads = s.hostReads := rfl
@[simp] theorem raiseFault_pending (e : CommandFault) : (raiseFault e s).pending = s.pending := rfl
@[simp] theorem raiseFault_answer (e : CommandFault) : (raiseFault e s).answer = s.answer := rfl

/-! ### completeOk -/

@[simp] theorem completeOk_coef : (completeOk s).coef = s.coef := rfl
@[simp] theorem completeOk_raw : (completeOk s).raw = s.raw := rfl
@[simp] theorem completeOk_tfine : (completeOk s).tfine = s.tfine := rfl
@[simp] theorem completeOk_out : (completeOk s).out = s.out := rfl
@[simp] theorem completeOk_status : (completeOk s).status = statusOk := rfl
@[simp] theorem completeOk_calValid : (completeOk s).calValid = s.calValid := rfl
@[simp] theorem completeOk_rawValid : (completeOk s).rawValid = s.rawValid := rfl
@[simp] theorem completeOk_tfValid : (completeOk s).tfValid = s.tfValid := rfl
@[simp] theorem completeOk_mem : (completeOk s).mem = s.mem := rfl
@[simp] theorem completeOk_tfineWritten : (completeOk s).tfineWritten = s.tfineWritten := rfl
@[simp] theorem completeOk_outWritten : (completeOk s).outWritten = s.outWritten := rfl
@[simp] theorem completeOk_epoch : (completeOk s).epoch = s.epoch := rfl
@[simp] theorem completeOk_hostReads : (completeOk s).hostReads = s.hostReads := rfl
@[simp] theorem completeOk_pending : (completeOk s).pending = s.pending := rfl
@[simp] theorem completeOk_answer : (completeOk s).answer = s.answer := rfl

/-! ### flagCalibrated -/

@[simp] theorem flagCalibrated_coef : (flagCalibrated s).coef = s.coef := rfl
@[simp] theorem flagCalibrated_raw : (flagCalibrated s).raw = s.raw := rfl
@[simp] theorem flagCalibrated_tfine : (flagCalibrated s).tfine = s.tfine := rfl
@[simp] theorem flagCalibrated_out : (flagCalibrated s).out = s.out := rfl
@[simp] theorem flagCalibrated_status : (flagCalibrated s).status = s.status := rfl
@[simp] theorem flagCalibrated_calValid : (flagCalibrated s).calValid = true := rfl
@[simp] theorem flagCalibrated_rawValid : (flagCalibrated s).rawValid = s.rawValid := rfl
@[simp] theorem flagCalibrated_tfValid : (flagCalibrated s).tfValid = false := rfl
@[simp] theorem flagCalibrated_mem : (flagCalibrated s).mem = s.mem := rfl
@[simp] theorem flagCalibrated_tfineWritten : (flagCalibrated s).tfineWritten = s.tfineWritten := rfl
@[simp] theorem flagCalibrated_outWritten : (flagCalibrated s).outWritten = s.outWritten := rfl
@[simp] theorem flagCalibrated_epoch : (flagCalibrated s).epoch = s.epoch := rfl
@[simp] theorem flagCalibrated_hostReads : (flagCalibrated s).hostReads = s.hostReads := rfl
@[simp] theorem flagCalibrated_pending : (flagCalibrated s).pending = s.pending := rfl
@[simp] theorem flagCalibrated_answer : (flagCalibrated s).answer = s.answer := rfl

/-! ### flagSampled -/

@[simp] theorem flagSampled_coef : (flagSampled s).coef = s.coef := rfl
@[simp] theorem flagSampled_raw : (flagSampled s).raw = s.raw := rfl
@[simp] theorem flagSampled_tfine : (flagSampled s).tfine = s.tfine := rfl
@[simp] theorem flagSampled_out : (flagSampled s).out = s.out := rfl
@[simp] theorem flagSampled_status : (flagSampled s).status = s.status := rfl
@[simp] theorem flagSampled_calValid : (flagSampled s).calValid = s.calValid := rfl
@[simp] theorem flagSampled_rawValid : (flagSampled s).rawValid = true := rfl
@[simp] theorem flagSampled_tfValid : (flagSampled s).tfValid = false := rfl
@[simp] theorem flagSampled_mem : (flagSampled s).mem = s.mem := rfl
@[simp] theorem flagSampled_tfineWritten : (flagSampled s).tfineWritten = s.tfineWritten := rfl
@[simp] theorem flagSampled_outWritten : (flagSampled s).outWritten = s.outWritten := rfl
@[simp] theorem flagSampled_epoch : (flagSampled s).epoch = s.epoch := rfl
@[simp] theorem flagSampled_hostReads : (flagSampled s).hostReads = s.hostReads := rfl
@[simp] theorem flagSampled_pending : (flagSampled s).pending = s.pending := rfl
@[simp] theorem flagSampled_answer : (flagSampled s).answer = s.answer := rfl

/-! ### flagTfineFresh -/

@[simp] theorem flagTfineFresh_coef : (flagTfineFresh s).coef = s.coef := rfl
@[simp] theorem flagTfineFresh_raw : (flagTfineFresh s).raw = s.raw := rfl
@[simp] theorem flagTfineFresh_tfine : (flagTfineFresh s).tfine = s.tfine := rfl
@[simp] theorem flagTfineFresh_out : (flagTfineFresh s).out = s.out := rfl
@[simp] theorem flagTfineFresh_status : (flagTfineFresh s).status = s.status := rfl
@[simp] theorem flagTfineFresh_calValid : (flagTfineFresh s).calValid = s.calValid := rfl
@[simp] theorem flagTfineFresh_rawValid : (flagTfineFresh s).rawValid = s.rawValid := rfl
@[simp] theorem flagTfineFresh_tfValid : (flagTfineFresh s).tfValid = true := rfl
@[simp] theorem flagTfineFresh_mem : (flagTfineFresh s).mem = s.mem := rfl
@[simp] theorem flagTfineFresh_tfineWritten : (flagTfineFresh s).tfineWritten = s.tfineWritten := rfl
@[simp] theorem flagTfineFresh_outWritten : (flagTfineFresh s).outWritten = s.outWritten := rfl
@[simp] theorem flagTfineFresh_epoch : (flagTfineFresh s).epoch = s.epoch := rfl
@[simp] theorem flagTfineFresh_hostReads : (flagTfineFresh s).hostReads = s.hostReads := rfl
@[simp] theorem flagTfineFresh_pending : (flagTfineFresh s).pending = s.pending := rfl
@[simp] theorem flagTfineFresh_answer : (flagTfineFresh s).answer = s.answer := rfl

/-! ### zeroOutputs -/

@[simp] theorem zeroOutputs_coef : (zeroOutputs s).coef = s.coef := rfl
@[simp] theorem zeroOutputs_raw : (zeroOutputs s).raw = s.raw := rfl
@[simp] theorem zeroOutputs_tfine : (zeroOutputs s).tfine = s.tfine := rfl
@[simp] theorem zeroOutputs_out : (zeroOutputs s).out = ⟨0, 0, 0⟩ := rfl
@[simp] theorem zeroOutputs_status : (zeroOutputs s).status = s.status := rfl
@[simp] theorem zeroOutputs_calValid : (zeroOutputs s).calValid = s.calValid := rfl
@[simp] theorem zeroOutputs_rawValid : (zeroOutputs s).rawValid = s.rawValid := rfl
@[simp] theorem zeroOutputs_tfValid : (zeroOutputs s).tfValid = s.tfValid := rfl
@[simp] theorem zeroOutputs_mem : (zeroOutputs s).mem = s.mem := rfl
@[simp] theorem zeroOutputs_tfineWritten : (zeroOutputs s).tfineWritten = s.tfineWritten := rfl
@[simp] theorem zeroOutputs_outWritten : (zeroOutputs s).outWritten = true := rfl
@[simp] theorem zeroOutputs_epoch : (zeroOutputs s).epoch = s.epoch := rfl
@[simp] theorem zeroOutputs_hostReads : (zeroOutputs s).hostReads = s.hostReads := rfl
@[simp] theorem zeroOutputs_pending : (zeroOutputs s).pending = s.pending := rfl
@[simp] theorem zeroOutputs_answer : (zeroOutputs s).answer = s.answer := rfl

/-! ### answerStatus -/

@[simp] theorem answerStatus_coef : (answerStatus s).coef = s.coef := rfl
@[simp] theorem answerStatus_raw : (answerStatus s).raw = s.raw := rfl
@[simp] theorem answerStatus_tfine : (answerStatus s).tfine = s.tfine := rfl
@[simp] theorem answerStatus_out : (answerStatus s).out = s.out := rfl
@[simp] theorem answerStatus_status : (answerStatus s).status = s.status := rfl
@[simp] theorem answerStatus_calValid : (answerStatus s).calValid = s.calValid := rfl
@[simp] theorem answerStatus_rawValid : (answerStatus s).rawValid = s.rawValid := rfl
@[simp] theorem answerStatus_tfValid : (answerStatus s).tfValid = s.tfValid := rfl
@[simp] theorem answerStatus_mem : (answerStatus s).mem = s.mem := rfl
@[simp] theorem answerStatus_tfineWritten : (answerStatus s).tfineWritten = s.tfineWritten := rfl
@[simp] theorem answerStatus_outWritten : (answerStatus s).outWritten = s.outWritten := rfl
@[simp] theorem answerStatus_epoch : (answerStatus s).epoch = s.epoch := rfl
@[simp] theorem answerStatus_hostReads : (answerStatus s).hostReads = s.hostReads := rfl
@[simp] theorem answerStatus_pending : (answerStatus s).pending = s.pending := rfl
@[simp] theorem answerStatus_answer : (answerStatus s).answer = .status s.status := rfl

/-! ### applyReset -/

@[simp] theorem applyReset_coef : (applyReset s).coef = Coefficients.zero := rfl
@[simp] theorem applyReset_raw : (applyReset s).raw = ⟨0, 0, 0⟩ := rfl
@[simp] theorem applyReset_tfine : (applyReset s).tfine = 0 := rfl
@[simp] theorem applyReset_out : (applyReset s).out = ⟨0, 0, 0⟩ := rfl
@[simp] theorem applyReset_status : (applyReset s).status = 0 := rfl
@[simp] theorem applyReset_calValid : (applyReset s).calValid = false := rfl
@[simp] theorem applyReset_rawValid : (applyReset s).rawValid = false := rfl
@[simp] theorem applyReset_tfValid : (applyReset s).tfValid = false := rfl
@[simp] theorem applyReset_mem : (applyReset s).mem = [] := rfl
@[simp] theorem applyReset_tfineWritten : (applyReset s).tfineWritten = false := rfl
@[simp] theorem applyReset_outWritten : (applyReset s).outWritten = false := rfl
@[simp] theorem applyReset_epoch : (applyReset s).epoch = s.epoch + 1 := rfl
@[simp] theorem applyReset_hostReads : (applyReset s).hostReads = s.hostReads := rfl
@[simp] theorem applyReset_pending : (applyReset s).pending = s.pending := rfl
@[simp] theorem applyReset_answer : (applyReset s).answer = .nothing := rfl

end Sys2Proof.Machine
end

