-- ==== Sys2Proof/Laws/Commands.lean ====
section
/-! SUPPORT. What each command does, said once: the state it leaves, and each field of the state the stages of
`COMPENSATE` leave, so that no later proof unfolds a meaning. -/

namespace Sys2Proof.Machine

/-- The state `CALUNPACK` leaves. -/
theorem exec_calunpack (s : State) :
    exec .calunpack s = .next (completeOk (flagCalibrated (withCoefficients s (unpackCoefficients s)))) := rfl

/-- The state `RAWPARSE` leaves. -/
theorem exec_rawparse (s : State) :
    exec .rawparse s = .next (completeOk (flagSampled (withRaw s (parseRaw s)))) := rfl

/-- The state `COMPENSATE` leaves when both valid flags are set. -/
theorem exec_compensate_present (sel : Sel) {s : State} (hc : s.calValid = true) (hr : s.rawValid = true) :
    exec (.compensate sel) s = .next (completeOk (compensateStages sel s)) := by
  simp [exec, execCompensate, inputsPresent, hc, hr]

/-- The state `COMPENSATE` leaves when one of them is clear. -/
theorem exec_compensate_absent (sel : Sel) {s : State} (h : s.calValid = false ∨ s.rawValid = false) :
    exec (.compensate sel) s = .next (raiseFault .nullReference s) := by
  rcases h with h | h <;> simp [exec, execCompensate, inputsPresent, h]

/-- Every command answers a next state. -/
theorem exec_next (i : Instr) (s : State) : ∃ t, exec i s = .next t := by
  cases i <;> exact ⟨_, rfl⟩

/-! ### Which registers count as written -/

/-- `COMPENSATE` writes the three outputs together (43_compensate.md R131), so they share a mark. -/
theorem registerWritten_outputs (s : State) {n : Nat} (h : 22 ≤ n) (h' : n ≤ 24) :
    registerWritten s n = s.outWritten := by
  unfold registerWritten
  rw [if_neg (by omega), if_neg (by omega), if_neg (by omega), if_pos h']

@[simp] theorem registerWritten_tfine (s : State) : registerWritten s 21 = s.tfineWritten := rfl

/-! ### The fields the stages leave -/

/-- The `TFINE` the temperature stage computes from this state (44_stage_temperature.md R150). -/
def nextTfine (s : State) : Word := fineTemperature s.raw.t s.coef.t1 s.coef.t2 s.coef.t3

variable (sel : Sel) (s : State)

@[simp] theorem nextTfine_zeroOutputs : nextTfine (zeroOutputs s) = nextTfine s := rfl

theorem temperaturePart_zero : temperaturePart 0 s = s := if_pos rfl

theorem temperaturePart_ne {sel : Sel} (h : sel ≠ 0) :
    temperaturePart sel s = withOutputs (flagTfineFresh (withTfine s (nextTfine s)))
      { s.out with t :=
          if selectsTemperature sel then temperatureReading (nextTfine s)
          else unselectedTemperature (temperatureReading (nextTfine s)) } :=
  if_neg h

@[simp] theorem temperaturePart_coef : (temperaturePart sel s).coef = s.coef := by
  by_cases h : sel = 0
  · rw [h, temperaturePart_zero]
  · simp [temperaturePart_ne _ h]
@[simp] theorem temperaturePart_raw : (temperaturePart sel s).raw = s.raw := by
  by_cases h : sel = 0
  · rw [h, temperaturePart_zero]
  · simp [temperaturePart_ne _ h]
@[simp] theorem temperaturePart_calValid : (temperaturePart sel s).calValid = s.calValid := by
  by_cases h : sel = 0
  · rw [h, temperaturePart_zero]
  · simp [temperaturePart_ne _ h]
@[simp] theorem temperaturePart_rawValid : (temperaturePart sel s).rawValid = s.rawValid := by
  by_cases h : sel = 0
  · rw [h, temperaturePart_zero]
  · simp [temperaturePart_ne _ h]
@[simp] theorem temperaturePart_mem : (temperaturePart sel s).mem = s.mem := by
  by_cases h : sel = 0
  · rw [h, temperaturePart_zero]
  · simp [temperaturePart_ne _ h]
@[simp] theorem temperaturePart_epoch : (temperaturePart sel s).epoch = s.epoch := by
  by_cases h : sel = 0
  · rw [h, temperaturePart_zero]
  · simp [temperaturePart_ne _ h]
@[simp] theorem temperaturePart_hostReads : (temperaturePart sel s).hostReads = s.hostReads := by
  by_cases h : sel = 0
  · rw [h, temperaturePart_zero]
  · simp [temperaturePart_ne _ h]
@[simp] theorem temperaturePart_pending : (temperaturePart sel s).pending = s.pending := by
  by_cases h : sel = 0
  · rw [h, temperaturePart_zero]
  · simp [temperaturePart_ne _ h]
@[simp] theorem temperaturePart_answer : (temperaturePart sel s).answer = s.answer := by
  by_cases h : sel = 0
  · rw [h, temperaturePart_zero]
  · simp [temperaturePart_ne _ h]
@[simp] theorem temperaturePart_status : (temperaturePart sel s).status = s.status := by
  by_cases h : sel = 0
  · rw [h, temperaturePart_zero]
  · simp [temperaturePart_ne _ h]
@[simp] theorem temperaturePart_out_p : (temperaturePart sel s).out.p = s.out.p := by
  by_cases h : sel = 0
  · rw [h, temperaturePart_zero]
  · simp [temperaturePart_ne _ h]
@[simp] theorem temperaturePart_out_h : (temperaturePart sel s).out.h = s.out.h := by
  by_cases h : sel = 0
  · rw [h, temperaturePart_zero]
  · simp [temperaturePart_ne _ h]
@[simp] theorem pressurePart_coef : (pressurePart sel s).coef = s.coef := by
  unfold pressurePart; split <;> simp
@[simp] theorem pressurePart_raw : (pressurePart sel s).raw = s.raw := by
  unfold pressurePart; split <;> simp
@[simp] theorem pressurePart_calValid : (pressurePart sel s).calValid = s.calValid := by
  unfold pressurePart; split <;> simp
@[simp] theorem pressurePart_rawValid : (pressurePart sel s).rawValid = s.rawValid := by
  unfold pressurePart; split <;> simp
@[simp] theorem pressurePart_mem : (pressurePart sel s).mem = s.mem := by
  unfold pressurePart; split <;> simp
@[simp] theorem pressurePart_epoch : (pressurePart sel s).epoch = s.epoch := by
  unfold pressurePart; split <;> simp
@[simp] theorem pressurePart_hostReads : (pressurePart sel s).hostReads = s.hostReads := by
  unfold pressurePart; split <;> simp
@[simp] theorem pressurePart_pending : (pressurePart sel s).pending = s.pending := by
  unfold pressurePart; split <;> simp
@[simp] theorem pressurePart_answer : (pressurePart sel s).answer = s.answer := by
  unfold pressurePart; split <;> simp
@[simp] theorem pressurePart_status : (pressurePart sel s).status = s.status := by
  unfold pressurePart; split <;> simp
@[simp] theorem pressurePart_tfine : (pressurePart sel s).tfine = s.tfine := by
  unfold pressurePart; split <;> simp
@[simp] theorem pressurePart_tfValid : (pressurePart sel s).tfValid = s.tfValid := by
  unfold pressurePart; split <;> simp
@[simp] theorem pressurePart_tfineWritten : (pressurePart sel s).tfineWritten = s.tfineWritten := by
  unfold pressurePart; split <;> simp
@[simp] theorem pressurePart_out_t : (pressurePart sel s).out.t = s.out.t := by
  unfold pressurePart; split <;> simp
@[simp] theorem pressurePart_out_h : (pressurePart sel s).out.h = s.out.h := by
  unfold pressurePart; split <;> simp
@[simp] theorem humidityPart_coef : (humidityPart sel s).coef = s.coef := by
  unfold humidityPart; split <;> simp
@[simp] theorem humidityPart_raw : (humidityPart sel s).raw = s.raw := by
  unfold humidityPart; split <;> simp
@[simp] theorem humidityPart_calValid : (humidityPart sel s).calValid = s.calValid := by
  unfold humidityPart; split <;> simp
@[simp] theorem humidityPart_rawValid : (humidityPart sel s).rawValid = s.rawValid := by
  unfold humidityPart; split <;> simp
@[simp] theorem humidityPart_mem : (humidityPart sel s).mem = s.mem := by
  unfold humidityPart; split <;> simp
@[simp] theorem humidityPart_epoch : (humidityPart sel s).epoch = s.epoch := by
  unfold humidityPart; split <;> simp
@[simp] theorem humidityPart_hostReads : (humidityPart sel s).hostReads = s.hostReads := by
  unfold humidityPart; split <;> simp
@[simp] theorem humidityPart_pending : (humidityPart sel s).pending = s.pending := by
  unfold humidityPart; split <;> simp
@[simp] theorem humidityPart_answer : (humidityPart sel s).answer = s.answer := by
  unfold humidityPart; split <;> simp
@[simp] theorem humidityPart_status : (humidityPart sel s).status = s.status := by
  unfold humidityPart; split <;> simp
@[simp] theorem humidityPart_tfine : (humidityPart sel s).tfine = s.tfine := by
  unfold humidityPart; split <;> simp
@[simp] theorem humidityPart_tfValid : (humidityPart sel s).tfValid = s.tfValid := by
  unfold humidityPart; split <;> simp
@[simp] theorem humidityPart_tfineWritten : (humidityPart sel s).tfineWritten = s.tfineWritten := by
  unfold humidityPart; split <;> simp
@[simp] theorem humidityPart_out_t : (humidityPart sel s).out.t = s.out.t := by
  unfold humidityPart; split <;> simp
@[simp] theorem humidityPart_out_p : (humidityPart sel s).out.p = s.out.p := by
  unfold humidityPart; split <;> simp

@[simp] theorem compensateStages_coef : (compensateStages sel s).coef = s.coef := by
  simp [compensateStages]
@[simp] theorem compensateStages_raw : (compensateStages sel s).raw = s.raw := by
  simp [compensateStages]
@[simp] theorem compensateStages_calValid : (compensateStages sel s).calValid = s.calValid := by
  simp [compensateStages]
@[simp] theorem compensateStages_rawValid : (compensateStages sel s).rawValid = s.rawValid := by
  simp [compensateStages]
@[simp] theorem compensateStages_mem : (compensateStages sel s).mem = s.mem := by
  simp [compensateStages]
@[simp] theorem compensateStages_epoch : (compensateStages sel s).epoch = s.epoch := by
  simp [compensateStages]
@[simp] theorem compensateStages_hostReads : (compensateStages sel s).hostReads = s.hostReads := by
  simp [compensateStages]
@[simp] theorem compensateStages_pending : (compensateStages sel s).pending = s.pending := by
  simp [compensateStages]
@[simp] theorem compensateStages_answer : (compensateStages sel s).answer = s.answer := by
  simp [compensateStages]

@[simp] theorem compensateStages_outWritten : (compensateStages sel s).outWritten = true := by
  have h : (temperaturePart sel (zeroOutputs s)).outWritten = true := by
    by_cases h : sel = 0
    · rw [h, temperaturePart_zero]; rfl
    · rw [temperaturePart_ne _ h]; rfl
  have h' : (pressurePart sel (temperaturePart sel (zeroOutputs s))).outWritten = true := by
    unfold pressurePart; split
    · rfl
    · exact h
  unfold compensateStages humidityPart
  split
  · rfl
  · exact h'

theorem compensateStages_tfine :
    (compensateStages sel s).tfine = if sel = 0 then s.tfine else nextTfine s := by
  by_cases h : sel = 0
  · simp only [compensateStages, humidityPart_tfine, pressurePart_tfine]
    rw [if_pos h, h, temperaturePart_zero]; rfl
  · simp only [compensateStages, humidityPart_tfine, pressurePart_tfine]
    rw [if_neg h, temperaturePart_ne _ h]; rfl

theorem compensateStages_tfineWritten :
    (compensateStages sel s).tfineWritten = if sel = 0 then s.tfineWritten else true := by
  by_cases h : sel = 0
  · simp only [compensateStages, humidityPart_tfineWritten, pressurePart_tfineWritten]
    rw [if_pos h, h, temperaturePart_zero]; rfl
  · simp only [compensateStages, humidityPart_tfineWritten, pressurePart_tfineWritten]
    rw [if_neg h, temperaturePart_ne _ h]; rfl

theorem compensateStages_tfValid :
    (compensateStages sel s).tfValid = if sel = 0 then s.tfValid else true := by
  by_cases h : sel = 0
  · simp only [compensateStages, humidityPart_tfValid, pressurePart_tfValid]
    rw [if_pos h, h, temperaturePart_zero]; rfl
  · simp only [compensateStages, humidityPart_tfValid, pressurePart_tfValid]
    rw [if_neg h, temperaturePart_ne _ h]; rfl

theorem temperaturePart_tfine {sel : Sel} (h : sel ≠ 0) : (temperaturePart sel s).tfine = nextTfine s := by
  rw [temperaturePart_ne _ h]; rfl

theorem selectsPressure_eq : selectsPressure sel = sel.getLsbD 0 := rfl
theorem selectsTemperature_eq : selectsTemperature sel = sel.getLsbD 1 := rfl
theorem selectsHumidity_eq : selectsHumidity sel = sel.getLsbD 2 := rfl

theorem selectsPressure_zero : selectsPressure 0 = false := rfl
theorem selectsTemperature_zero : selectsTemperature 0 = false := rfl
theorem selectsHumidity_zero : selectsHumidity 0 = false := rfl

theorem sel_ne_zero_of_pressure {sel : Sel} (h : selectsPressure sel = true) : sel ≠ 0 := by
  rintro rfl; exact absurd h (by decide)

theorem sel_ne_zero_of_temperature {sel : Sel} (h : selectsTemperature sel = true) : sel ≠ 0 := by
  rintro rfl; exact absurd h (by decide)

theorem sel_ne_zero_of_humidity {sel : Sel} (h : selectsHumidity sel = true) : sel ≠ 0 := by
  rintro rfl; exact absurd h (by decide)

theorem compensateStages_out_p :
    (compensateStages sel s).out.p =
      if selectsPressure sel then stagePressure s.raw.p (nextTfine s) s.coef else 0 := by
  simp only [compensateStages, humidityPart_out_p, pressurePart]
  split
  · rename_i hp
    have ht := temperaturePart_tfine (zeroOutputs s) (sel_ne_zero_of_pressure hp)
    simp only [withOutputs_out, temperaturePart_raw, temperaturePart_coef, ht, nextTfine_zeroOutputs,
      zeroOutputs_raw, zeroOutputs_coef]
  · simp only [temperaturePart_out_p, zeroOutputs_out]

theorem compensateStages_out_h :
    (compensateStages sel s).out.h =
      if selectsHumidity sel then stageHumidity s.raw.h (nextTfine s) s.coef else 0 := by
  simp only [compensateStages, humidityPart]
  split
  · rename_i hh
    have ht := temperaturePart_tfine (zeroOutputs s) (sel_ne_zero_of_humidity hh)
    simp only [withOutputs_out, pressurePart_raw, pressurePart_coef, pressurePart_tfine, temperaturePart_raw,
      temperaturePart_coef, ht, nextTfine_zeroOutputs, zeroOutputs_raw, zeroOutputs_coef]
  · simp only [pressurePart_out_h, temperaturePart_out_h, zeroOutputs_out]

theorem compensateStages_out_t :
    (compensateStages sel s).out.t =
      if sel = 0 then 0
      else if selectsTemperature sel then temperatureReading (nextTfine s)
      else unselectedTemperature (temperatureReading (nextTfine s)) := by
  simp only [compensateStages, humidityPart_out_t, pressurePart_out_t]
  by_cases h : sel = 0
  · rw [if_pos h, h, temperaturePart_zero]; rfl
  · rw [if_neg h, temperaturePart_ne _ h]; rfl

/-! ### The ranges of the readings -/

theorem temperatureReading_range (tfine : Word) :
    -4000 ≤ (temperatureReading tfine).toInt ∧ (temperatureReading tfine).toInt ≤ 8500 := by
  rw [temperatureReading, toInt_clampS _ (by decide) (by decide) (by decide)]
  split
  · omega
  · split <;> omega

theorem stagePressure_range (rawP tfine : Word) (c : Coefficients) :
    30000 ≤ (stagePressure rawP tfine c).toNat ∧ (stagePressure rawP tfine c).toNat ≤ 110000 := by
  simp only [stagePressure]
  split
  · decide
  · rw [toNat_clampU _ (by decide) (by decide)]
    split
    · omega
    · split <;> omega

theorem stageHumidity_range (rawH tfine : Word) (c : Coefficients) :
    (stageHumidity rawH tfine c).toNat ≤ 102400 := by
  simp only [stageHumidity]
  rw [toNat_clampU _ (by decide) (by decide)]
  split
  · omega
  · split <;> omega

/-- Whatever `TOUT_UNSEL` is, `OUT_T` gets 0 or the reading (43_compensate.md R135). -/
theorem unselectedTemperature_cases (t : Word) : unselectedTemperature t = 0 ∨ unselectedTemperature t = t := by
  unfold unselectedTemperature
  split
  · exact .inl rfl
  · exact .inr rfl

end Sys2Proof.Machine
end

