-- ==== Sys2Proof/Laws/Step.lean ====
section
/-! SUPPORT. Everything one step can do, said once: the host has nothing left, or one of its five operations is
performed. -/

namespace Sys2Proof.Machine

theorem step_idle {s : State} (h : s.pending = []) : step s = .next s := by
  simp [step, nextHostOp, h]

theorem step_op {s : State} {op : HostOp} {rest : List HostOp} (h : s.pending = op :: rest) :
    step s = performHostOp op (withPending s rest) := by
  simp [step, nextHostOp, h]

theorem hostCommand_command {w : Byte} {i : Instr} (h : decode w = .command i) (s : State) :
    hostCommand w s = returnFromCommand (exec i s) := by
  simp [hostCommand, h]

theorem hostCommand_reserved {w : Byte} {why : ReservedWord} (h : decode w = .reserved why) (s : State) :
    hostCommand w s = .next (answerStatus (raiseFault .illegalCommand s)) := by
  simp [hostCommand, h]

/-- What one host operation leaves. -/
theorem performHostOp_cases {op : HostOp} {s t : State} (h : performHostOp op s = .next t) :
    (∃ a b, op = .hwb a b ∧ t = hostWriteByte a b s) ∨
    (∃ a, op = .hrb a ∧ t = hostReadByte a s) ∨
    (∃ n, op = .hrr n ∧ t = hostReadRegister n s) ∨
    (∃ w i u, op = .hcmd w ∧ decode w = .command i ∧ exec i s = .next u ∧ t = answerStatus u) ∨
    (∃ w why, op = .hcmd w ∧ decode w = .reserved why ∧
      t = answerStatus (raiseFault .illegalCommand s)) ∨
    (op = .reset ∧ t = applyReset s) := by
  cases op with
  | hwb a b => exact .inl ⟨a, b, rfl, by cases h; rfl⟩
  | hrb a => exact .inr (.inl ⟨a, rfl, by cases h; rfl⟩)
  | hrr n => exact .inr (.inr (.inl ⟨n, rfl, by cases h; rfl⟩))
  | hcmd w =>
    simp only [performHostOp] at h
    cases hd : decode w with
    | command i =>
      obtain ⟨u, hu⟩ := exec_next i s
      rw [hostCommand_command hd, hu] at h
      exact .inr (.inr (.inr (.inl ⟨w, i, u, rfl, hd, hu, by cases h; rfl⟩)))
    | reserved why =>
      rw [hostCommand_reserved hd] at h
      exact .inr (.inr (.inr (.inr (.inl ⟨w, why, rfl, hd, by cases h; rfl⟩))))
  | reset => exact .inr (.inr (.inr (.inr (.inr ⟨rfl, by cases h; rfl⟩))))

/-- No command stores a byte (10_state.md R16). -/
theorem exec_mem {i : Instr} {s t : State} (h : exec i s = .next t) : t.mem = s.mem := by
  cases i with
  | calunpack => rw [exec_calunpack] at h; cases h; simp
  | rawparse => rw [exec_rawparse] at h; cases h; simp
  | compensate sel =>
    simp only [exec, execCompensate] at h
    cases h
    split <;> simp

/-- No command touches the host's queue. -/
theorem exec_pending {i : Instr} {s t : State} (h : exec i s = .next t) : t.pending = s.pending := by
  cases i with
  | calunpack => rw [exec_calunpack] at h; cases h; simp
  | rawparse => rw [exec_rawparse] at h; cases h; simp
  | compensate sel =>
    simp only [exec, execCompensate] at h
    cases h
    split <;> simp

/-- A byte is kept by every host operation but `RESET` and a write to its own address. -/
theorem performHostOp_keeps_byte {op : HostOp} {s t : State} (h : performHostOp op s = .next t) (hr : op ≠ .reset)
    (a : Byte) (hw : ∀ b, op ≠ .hwb a b) : Memory.read t.mem a.toNat = Memory.read s.mem a.toNat := by
  rcases performHostOp_cases h with ⟨x, b, rfl, rfl⟩ | ⟨x, rfl, rfl⟩ | ⟨n, rfl, rfl⟩ | ⟨w, i, u, rfl, _, hu, rfl⟩ |
    ⟨w, why, rfl, _, rfl⟩ | ⟨rfl, rfl⟩
  · have hx : a.toNat ≠ x.toNat := fun e => hw b (by rw [BitVec.eq_of_toNat_eq e])
    unfold hostWriteByte
    split <;> simp [memory_read_write, hx]
  · simp [hostReadByte]
  · simp [hostReadRegister]
  · simp [answerStatus, exec_mem hu]
  · simp [answerStatus]
  · exact absurd rfl hr

/-- Every host operation leaves the operations after it in the queue. -/
theorem performHostOp_pending {op : HostOp} {s t : State} (h : performHostOp op s = .next t) :
    t.pending = s.pending := by
  rcases performHostOp_cases h with ⟨x, b, rfl, rfl⟩ | ⟨x, rfl, rfl⟩ | ⟨n, rfl, rfl⟩ | ⟨w, i, u, rfl, _, hu, rfl⟩ |
    ⟨w, why, rfl, _, rfl⟩ | ⟨rfl, rfl⟩
  · unfold hostWriteByte
    split <;> simp
  · simp [hostReadByte]
  · simp [hostReadRegister]
  · simp [answerStatus, exec_pending hu]
  · simp [answerStatus]
  · rfl

/-- What one step leaves. -/
theorem step_cases {s t : State} (h : step s = .next t) :
    (s.pending = [] ∧ t = s) ∨
    ∃ op rest, s.pending = op :: rest ∧ performHostOp op (withPending s rest) = .next t := by
  cases hp : s.pending with
  | nil => rw [step_idle hp] at h; exact .inl ⟨rfl, by cases h; rfl⟩
  | cons op rest => rw [step_op hp] at h; exact .inr ⟨op, rest, rfl, h⟩

end Sys2Proof.Machine
end

