-- ==== Sys2Proof/Laws/PerInstr.lean ====
section
/-! SUPPORT. Statements for all instructions, one lemma per constructor. -/

namespace Sys2Proof.Laws.WordFields

/-- The word of a command carries exactly the fields 30_encoding.md R60 and R61 give it, the reserved bit 3 is
0, and the fields pass every check of R64. -/
def Statement (i : Instr) : Prop :=
  splitWord (encode i) = i.fields ∧ (encode i).getLsbD 3 = false ∧ i.wellFormed = true

theorem calunpack : Statement .calunpack := by
  unfold Statement; decide

theorem rawparse : Statement .rawparse := by
  unfold Statement; decide

theorem compensate (sel : Sel) : Statement (.compensate sel) := by
  unfold Statement
  revert sel
  decide

end Sys2Proof.Laws.WordFields
end

