-- ==== Sys2Proof/Tests/Slice0.lean ====
section
/-! SUPPORT. The model's own tests. Expected values come from 95_test_vectors.md (the vector is named) or from the
rule named. The witnesses show, for each statement with hypotheses, a concrete state and operands that meet
all of them together. -/

namespace Sys2Proof.Tests

open Sys2Proof.Machine

/-! ### States -/

/-- Buffer cells with these bytes from address `a` on. -/
def cellsFrom : Nat → List Byte → Memory
  | _, [] => []
  | a, b :: bs => (a, b) :: cellsFrom (a + 1) bs

/-- `CALTP` of vector UV1. -/
def tp : List Byte :=
  [0x60, 0x6D, 0x84, 0x67, 0x32, 0x00, 0x88, 0x90, 0x98, 0xD6, 0xD0, 0x0B, 0x4C,
   0x1D, 0x9C, 0xFF, 0xF9, 0xFF, 0xAC, 0x26, 0x0A, 0xD8, 0xBD, 0x10, 0xA5, 0x4B]

/-- `CALH` of vector UH5. -/
def hum : List Byte := [0x34, 0x12, 0x80, 0x7F, 0x80, 0x5A, 0x7F]

/-- `BURST` of vector W1. -/
def burst : List Byte := [0x50, 0x91, 0x0F, 0x7E, 0xF4, 0x03, 0x75, 0x30]

def byteOf (l : List Byte) (i : Nat) : Byte := l.getD i 0

/-- All three buffers loaded, nothing unpacked. -/
def loaded : State :=
  { State.reset with mem := cellsFrom 0x88 tp ++ cellsFrom 0xE1 hum ++ cellsFrom 0xF7 burst }

/-- Coefficient set K1 of 95_test_vectors.md part 4. -/
def k1 : Coefficients where
  t1 := 28000
  t2 := 26500
  t3 := 50
  p1 := 37000
  p2 := BitVec.ofInt 16 (-10600)
  p3 := 3024
  p4 := 7500
  p5 := BitVec.ofInt 16 (-100)
  p6 := BitVec.ofInt 16 (-7)
  p7 := 9900
  p8 := BitVec.ofInt 16 (-10230)
  p9 := 4285
  h1 := 75
  h2 := 362
  h3 := 0
  h4 := 322
  h5 := 50
  h6 := 30

/-- K1 and the raw values of W1 in the registers. -/
def ready : State :=
  { State.reset with coef := k1, raw := ⟨330000, 520000, 30000⟩, calValid := true, rawValid := true }

/-- A field of the next state, if there is one. -/
def after {α : Type} (r : Host.Outcome State Fault Refusal) (f : State → α) : Option α :=
  match r with
  | .next t => some (f t)
  | .fault _ => none
  | .refused _ => none

/-! ### Well-formedness: an ill-formed term for each check (30_encoding.md R60, R64) -/

theorem test_fields_refuse_unassigned_op : CommandFields.wellFormed ⟨4, 0, 0⟩ = false := by decide
theorem test_fields_refuse_reserved_bit : CommandFields.wellFormed ⟨3, 1, 0⟩ = false := by decide
theorem test_fields_refuse_selector_of_rawparse : CommandFields.wellFormed ⟨2, 0, 1⟩ = false := by decide
theorem test_fields_accept_compensate_all : CommandFields.wellFormed ⟨3, 0, 7⟩ = true := by decide

/-! ### Decoding: words written out from 30_encoding.md R60, R61 -/

theorem test_decode_calunpack : decode 0b0001_0_000 = .command .calunpack := by decide
theorem test_decode_rawparse : decode 0b0010_0_000 = .command .rawparse := by decide
theorem test_decode_compensate_ht : decode 0b0011_0_110 = .command (.compensate 0b110) := by decide
theorem test_decode_zero_reserved : decode 0x00 = .reserved .unassignedOp := by decide
theorem test_decode_table_word : decodeTableWord 8 0x35 = some (.compensate 5) := by decide
theorem test_decode_sensor_reset_byte : decodeTableWord 8 0xB6 = none := by decide

/-! ### The commands -/

/-- UV1: `P2` = -10600, a negative little-endian field. -/
theorem test_calunpack_signed_field : after (exec .calunpack loaded) (·.coef.p2.toInt) = some (-10600) := by
  decide

/-- UH5: the nibbles of the shared byte go to different values. -/
theorem test_calunpack_packed :
    after (exec .calunpack loaded) (fun t => (t.coef.h4.toInt, t.coef.h5.toInt)) = some (2042, -2043) := by
  decide

/-- W1: most significant byte first, low nibbles ignored. -/
theorem test_rawparse_nominal :
    after (exec .rawparse loaded) (fun t => (t.raw.p.toNat, t.raw.t.toNat, t.raw.h.toNat)) =
      some (330000, 520000, 30000) := by
  decide

/-- 42_rawparse.md R124. -/
theorem test_rawparse_flags : after (exec .rawparse loaded) (fun t => (flagsWord t).toNat) = some 2 := by decide

/-- S7: `OUT_P`, `OUT_H`, `TFINE`. -/
theorem test_compensate_all :
    after (exec (.compensate 7) ready) (fun t => (t.out.p.toNat, t.out.h.toNat, t.tfine.toInt)) =
      some (100664, 52965, 116470) := by
  decide +kernel

/-- F4: the check precedes the zeroing, also for an empty selector. -/
theorem test_compensate_absent_raw :
    after (exec (.compensate 0) { ready with rawValid := false, out := ⟨1, 2, 3⟩ })
      (fun t => (t.status.toInt, t.out.h.toNat)) = some (-1, 3) := by
  decide

/-! ### The stages and the datapath -/

/-- TV5: both products wrap. -/
theorem test_temperature_wraps :
    (fineTemperature 0 65535 (BitVec.ofInt 16 (-32768)) 32767).toInt = -93 := by decide

/-- TV7: truncation toward zero, not to -1. -/
theorem test_temperature_truncates : (temperatureReading (BitVec.ofInt 32 (-38))).toInt = 0 := by decide

/-- PV10: a negative sum is a large unsigned number. -/
theorem test_pressure_negative_sum :
    (stagePressure 330000 129200
      { Coefficients.zero with p1 := 65535, p2 := 1000, p7 := BitVec.ofInt 16 (-32768) }).toNat = 110000 := by
  decide

/-- HV7: step H-5 wraps. -/
theorem test_humidity_wraps :
    (stageHumidity 40000 (BitVec.ofInt 32 (-100000))
      { Coefficients.zero with
          h1 := 255, h2 := BitVec.ofInt 16 (-300), h3 := 255, h4 := BitVec.ofInt 16 (-2048), h5 := 2047,
          h6 := BitVec.ofInt 8 (-128) }).toNat = 102400 := by
  decide

/-- A4: floor would be -371. -/
theorem test_sdiv_truncates : (sdiv (BitVec.ofInt 32 (-6076000)) 16384).toInt = -370 := by decide

/-- A10: the exact product is 4294901760. -/
theorem test_mul32_wraps :
    (mul32 (BitVec.ofInt 32 (-131070)) (BitVec.ofInt 32 (-32768))).toInt = -65536 := by decide

/-! ### The host -/

/-- 47_host_access.md R204: the status of a reserved word. -/
theorem test_step_reserved_word :
    after (step (State.withFetchWord ready 8 0x00)) (·.answer) = some (.status 0x80) := by decide

/-- 47_host_access.md R203: `P2` = -10600 reads 4294956696 (program PG1). -/
theorem test_hrr_sign_extends :
    after (step { ready with pending := [.hrr 4] }) (·.answer) = some (.view 4294956696) := by decide

/-- 20_memory.md R48. -/
theorem test_hwb_unmapped :
    after (step { loaded with pending := [.hwb 0xA2 1] }) (·.mem) = some loaded.mem := by decide

/-- 20_memory.md R48, both ends of each window and their neighbours. -/
theorem test_mapped_edges :
    [0x87, 0x88, 0xA1, 0xA2, 0xE0, 0xE1, 0xE7, 0xE8, 0xF6, 0xF7, 0xFE, 0xFF].map mapped =
      [false, true, true, false, false, true, true, false, false, true, true, false] := by decide

/-- 30_encoding.md R68: `LDRAW` is eight writes and one command. -/
theorem test_ldraw_length : (ldraw burst).length = 9 := by decide

/-! ### Witnesses: the hypotheses of each statement can be met -/

theorem test_witness_DecodeFollowsAlgorithm : (decode 0x21).instr? = none := by decide

theorem test_witness_ReservedWordsChangeOnlyStatus :
    ∃ s : State, s.pending = [.hcmd 0x38] ∧ ∀ i, decode 0x38 ≠ .command i :=
  ⟨{ ready with pending := [.hcmd 0x38] }, rfl, fun i h => by
    rw [show decode 0x38 = .reserved .reservedBit by decide] at h; cases h⟩

theorem test_witness_DecodeEncodeAgree : decode 0x37 = .command (.compensate 7) := by decide

/-- `LDRAW`'s eight bytes, and the last address alone. -/
theorem test_witness_PseudoInstructionsExpand :
    (0xF7 : Byte).toNat + burst.length ≤ 256 ∧ (0xFF : Byte).toNat + [(1 : Byte)].length ≤ 256 := by decide

theorem test_witness_StepRunsDecodedCommand :
    ∃ s : State, s.pending = [.hcmd 0x10, .hrr 26] ∧ decode 0x10 = .command .calunpack :=
  ⟨{ loaded with pending := [.hcmd 0x10, .hrr 26] }, rfl, by decide⟩

theorem test_witness_CommandReturnsStatus : ∃ s : State, s.pending = [.hcmd 0xFF] :=
  ⟨{ ready with pending := [.hcmd 0xFF] }, rfl⟩

theorem test_witness_IdleStepChangesNothing : ready.pending = [] := rfl

/-- Both ends of every window, and addresses next to them. -/
theorem test_witness_HostWriteStoresOneByte :
    ∀ a ∈ [0x88, 0xA1, 0xE1, 0xE7, 0xF7, 0xFE, 0x87, 0xA2, 0xFF],
      ∃ s : State, s.pending = [.hwb a 1] :=
  fun a _ => ⟨{ loaded with pending := [.hwb a 1] }, rfl⟩

/-- A write elsewhere, a command and a read between. -/
theorem test_witness_HostReadReturnsByteWritten :
    ∃ s : State, mapped (0xF7 : Byte).toNat = true ∧
      (∀ op ∈ [HostOp.hwb 0xF8 2, .hcmd 0x20, .hrr 18], op ≠ .reset ∧ ∀ b, op ≠ .hwb 0xF7 b) ∧
      s.pending = .hwb 0xF7 1 :: ([HostOp.hwb 0xF8 2, .hcmd 0x20, .hrr 18] ++ [.hrb 0xF7]) :=
  ⟨{ loaded with pending := [.hwb 0xF7 1, .hwb 0xF8 2, .hcmd 0x20, .hrr 18, .hrb 0xF7] }, by decide, by simp, rfl⟩

/-- Every register number of the table can be written. -/
theorem test_witness_RegisterViewsFollowTable :
    ∀ n ≤ 26, registerWritten { ready with tfineWritten := true, outWritten := true } n = true := by decide

theorem test_witness_HostReadsChangeNothing :
    (∃ s : State, s.pending = [.hrb 0x00]) ∧ ∃ s : State, s.pending = [.hrr 27] :=
  ⟨⟨{ ready with pending := [.hrb 0x00] }, rfl⟩, ⟨{ ready with pending := [.hrr 27] }, rfl⟩⟩

theorem test_witness_OnlyCommandsWriteRegisters :
    ∃ s t : State, s.pending = [.hwb 0x88 1] ∧ (∀ w, HostOp.hwb 0x88 1 ≠ .hcmd w) ∧
      HostOp.hwb 0x88 1 ≠ .reset ∧ step s = .next t :=
  ⟨{ ready with pending := [.hwb 0x88 1] }, _, rfl, by simp, by simp, rfl⟩

/-- One step for each row of the flag table: set by the command, kept, cleared. -/
theorem test_witness_FlagsFollowTable :
    ∀ op ∈ [HostOp.hcmd 0x10, .hcmd 0x20, .hcmd 0x31, .hcmd 0x30, .hcmd 0x00, .hrr 0, .reset],
      after (step { ready with pending := [op] }) (·.pending) = some [] := by decide

theorem test_witness_TfineChangesOnlyInTemperatureStage :
    after (step { ready with pending := [.hcmd 0x32] }) (fun t => decide (t.tfine ≠ ready.tfine)) = some true := by
  decide +kernel

theorem test_witness_CommandsAreRepeatable : ∃ t, exec .calunpack State.reset = .next t := ⟨_, rfl⟩

theorem test_witness_ResetEventResets : ∃ s : State, s.pending = [.reset, .hcmd 0x37] :=
  ⟨{ ready with pending := [.reset, .hcmd 0x37] }, rfl⟩

theorem test_witness_CalunpackTemperatureFields : HoldsBytes loaded 0x88 6 (byteOf tp) := by decide

theorem test_witness_CalunpackPressureFields : HoldsBytes loaded 0x8E 18 (byteOf (tp.drop 6)) := by decide

theorem test_witness_CalunpackHumidityFields :
    HoldsByte loaded 0xA1 0x4B ∧ HoldsBytes loaded 0xE1 7 (byteOf hum) := by decide

theorem test_witness_CalunpackPackedFields :
    HoldsByte loaded 0xE4 0x7F ∧ HoldsByte loaded 0xE5 0x80 ∧ HoldsByte loaded 0xE6 0x5A := by decide

/-- The largest nibble. -/
theorem test_witness_PackedDecodeIsTwelveBitExtension : (15 : Nat) < 16 := by decide

theorem test_witness_CalunpackCompletesAndValidates :
    ∃ s t : State, s.calValid = true ∧ s.pending = [.hcmd 0x37] ∧ HostOp.hcmd 0x37 ≠ .reset ∧ step s = .next t :=
  ⟨{ ready with pending := [.hcmd 0x37] }, _, rfl, rfl, by simp, rfl⟩

theorem test_witness_CalunpackFrame : ∃ t, exec .calunpack loaded = .next t := ⟨_, rfl⟩

/-- The state that a write to 0xA0 leaves, and the one before it. -/
theorem test_witness_CalunpackIgnoresUnusedByte :
    CalibrationLoaded loaded ∧ ∀ a, (0x88 ≤ a ∧ a ≤ 0xA1 ∧ a ≠ 0xA0) ∨ (0xE1 ≤ a ∧ a ≤ 0xE7) →
      Memory.read (hostWriteByte 0xA0 7 loaded).mem a = Memory.read loaded.mem a :=
  ⟨by decide, fun a h => memory_read_write_other _ (a := 0xA0) _ (by omega)⟩

/-- Two buffers that differ at 0xA0. -/
theorem test_witness_CalunpackIgnoresUnusedByteUnwritten :
    (∀ a, a ≠ 0xA0 → Memory.read (Memory.write loaded.mem 0xA0 7) a = Memory.read loaded.mem a) ∧
      Memory.read (Memory.write loaded.mem 0xA0 7) 0xA0 ≠ Memory.read loaded.mem 0xA0 :=
  ⟨fun _ h => memory_read_write_other _ _ h, by decide⟩

theorem test_witness_PackedCoefficientsStayInRange : ∃ t, exec .calunpack State.reset = .next t := ⟨_, rfl⟩

theorem test_witness_SensorLayoutMovesSharedNibbles :
    HoldsByte loaded 0xE4 0x7F ∧ HoldsByte loaded 0xE5 0x80 ∧ HoldsByte loaded 0xE6 0x5A := by decide

theorem test_witness_RawparseFields : HoldsBytes loaded 0xF7 8 (byteOf burst) := by decide

theorem test_witness_RawparseFrame : ∃ t, exec .rawparse loaded = .next t := ⟨_, rfl⟩

/-- W1 against a burst that differs in the low nibble of byte 2 only. -/
theorem test_witness_RawparseIgnoresExactlyTwoNibbles :
    ∃ s' t t' : State, HoldsBytes loaded 0xF7 8 (byteOf burst) ∧
      HoldsBytes s' 0xF7 8 (byteOf (burst.set 2 0x00)) ∧
      exec .rawparse loaded = .next t ∧ exec .rawparse s' = .next t' :=
  ⟨{ loaded with mem := cellsFrom 0xF7 (burst.set 2 0x00) }, _, _, by decide, by decide, rfl, rfl⟩

theorem test_witness_LoadRawReachesRegisters :
    ∃ s : State, s.pending = ldraw [0x50, 0x91, 0x0F, 0x7E, 0xF4, 0x03, 0x75, 0x30] ++ [.hcmd 0x37] :=
  ⟨{ ready with pending := ldraw burst ++ [.hcmd 0x37] }, rfl⟩

/-- Both clauses: a flag clear, and a command that ends with -1. -/
theorem test_witness_CompensateWithoutInputsFaults :
    (State.reset.calValid = false ∨ State.reset.rawValid = false) ∧
      ∃ t, exec (.compensate 0) State.reset = .next t ∧ t.status.toInt = -1 :=
  ⟨.inl rfl, _, exec_compensate_absent 0 (.inl rfl), rfl⟩

/-- For every selector: a flag clear, and both flags set. -/
theorem test_witness_CompensateFollowsSequence :
    (State.reset.calValid = false ∨ State.reset.rawValid = false) ∧
      ready.calValid = true ∧ ready.rawValid = true := ⟨.inl rfl, rfl, rfl⟩

theorem test_witness_CompensateNoneZeroesOutputs : ready.calValid = true ∧ ready.rawValid = true := ⟨rfl, rfl⟩

/-- Both flags set, and a selector for each clause. -/
theorem test_witness_CompensateMakesOutputsReadable :
    ready.calValid = true ∧ ready.rawValid = true ∧ (4 : Sel) ≠ 0 ∧ (0 : Sel) = 0 := by decide

theorem test_witness_CompensateOutputsStayInRange :
    ready.calValid = true ∧ ready.rawValid = true ∧ (1 : Sel).getLsbD 0 = true ∧ (6 : Sel).getLsbD 0 = false := by
  decide

theorem test_witness_OutputsDoNotDependOnSelector :
    ∃ t u : State, ready.calValid = true ∧ ready.rawValid = true ∧
      exec (.compensate 1) ready = .next t ∧ exec (.compensate 7) ready = .next u :=
  ⟨_, _, rfl, rfl, exec_compensate_present 1 rfl rfl, exec_compensate_present 7 rfl rfl⟩

theorem test_witness_StaleTfineIsNeverRead :
    (5 : Sel) ≠ 0 ∧ ready.calValid = true ∧ ready.rawValid = true := by decide

theorem test_witness_CompensateFrame :
    (∃ t, exec (.compensate 4) ready = .next t) ∧ ∃ t, exec (.compensate 4) State.reset = .next t :=
  ⟨⟨_, exec_compensate_present 4 rfl rfl⟩, ⟨_, exec_compensate_absent 4 (.inl rfl)⟩⟩

/-- The largest raw humidity. -/
theorem test_witness_HumidityStageMatchesSteps : (65535 : Word).toNat < 2 ^ 16 := by decide

theorem test_witness_ZeroPressureDivisorGivesLowerBound :
    ({ ready with coef := { k1 with p1 := 0 } } : State).calValid = true ∧
      ({ ready with coef := { k1 with p1 := 0 } } : State).rawValid = true ∧
      (1 : Sel).getLsbD 0 = true ∧ ({ ready with coef := { k1 with p1 := 0 } } : State).coef.p1 = 0 := by decide

/-- Both ends of the signed range, and the smallest divisor. -/
theorem test_witness_SignedOperationsWrap :
    (-2 ^ 31 ≤ (2 ^ 31 - 1 : Int)) ∧ ((2 ^ 31 - 1 : Int) ≤ 2 ^ 31 - 1) ∧
      (2 ^ 31 - 1 : Int) % 2 ^ 32 = (-2 ^ 31 - 1 : Int) % 2 ^ 32 ∧ 0 < 1 := by decide

/-- The largest word that `shl1` doubles, and the smallest divisor. -/
theorem test_witness_UnsignedOperationsWrap : (0x7FFFFFFF : Word).toNat < 2 ^ 31 ∧ (1 : Word) ≠ 0 := by decide

theorem test_witness_SignedDivisionTruncates : 0 < 1 ∧ 0 < 262144 := by decide

theorem test_witness_BiasedShiftIsDivision : (1 ≤ 1 ∧ 1 ≤ 30) ∧ (1 ≤ 30 ∧ 30 ≤ 30) := by decide

/-- A degenerate range at each end, and the ranges the stages use. -/
theorem test_witness_ClampBoundsValue :
    ((-4000 : Int) ≤ 8500 ∧ (-2 ^ 31 : Int) ≤ -4000 ∧ (8500 : Int) ≤ 2 ^ 31 - 1) ∧
      ((30000 : Nat) ≤ 110000 ∧ 110000 < 2 ^ 32) := by decide

/-- `ready` meets the invariant, with every register it holds written by hand. -/
theorem test_ready_inv : Inv ready where
  memory := by decide
  rawP := fun _ => by decide
  rawT := fun _ => by decide
  rawH := fun _ => by decide
  h4 := fun _ => by decide
  h5 := fun _ => by decide
  status := .inl rfl
  outP := fun _ => .inl rfl
  outT := fun _ => by decide
  outH := fun _ => by decide
  outWritten := fun h => by cases h
  tfineWritten := fun h => by cases h
  fresh := fun h => by cases h

theorem test_witness_StepKeepsInvariant :
    ∃ s t : State, Inv s ∧ s.pending = [.hwb 0x88 1] ∧ step s = .next t :=
  ⟨{ ready with pending := [.hwb 0x88 1] }, _, { test_ready_inv with }, rfl, rfl⟩

/-- `ready` with the `TFINE` of its own raw sample and coefficients, and the flag that says so. -/
def fresh : State :=
  { ready with tfine := nextTfine ready, tfValid := true, tfineWritten := true, outWritten := true }

theorem test_fresh_inv : Inv fresh :=
  { test_ready_inv with
    outP := fun _ => .inl rfl
    outT := fun _ => by decide
    outH := fun _ => by decide
    outWritten := fun _ => ⟨rfl, rfl⟩
    tfineWritten := fun _ => rfl
    fresh := fun _ => ⟨rfl, rfl⟩ }

/-- Two steps, the first a buffer write. -/
theorem test_witness_FreshFlagIsTruthfulOnRuns :
    ∃ s t : State, Inv s ∧ Host.Core.run core 2 s = .next t ∧ t.tfValid = true :=
  ⟨{ fresh with pending := [.hwb 0x88 1] }, _, { test_fresh_inv with }, rfl, rfl⟩

end Sys2Proof.Tests
end

section
/-! PROOFS. The 32-bit view of a register (10_state.md R26): what the extension of each register type does to the
register's value, and from that the row of every register number. -/

namespace Sys2Proof.Machine

/-! ### The extension of each register type -/

@[simp] theorem toNat_extendView_u8 (r : Byte) : (extendView .u8 (r.setWidth 32)).toNat = r.toNat := by
  simp only [extendView, BitVec.toNat_setWidth]
  omega

@[simp] theorem toNat_extendView_u16 (r : Half) : (extendView .u16 (r.setWidth 32)).toNat = r.toNat := by
  simp only [extendView, BitVec.toNat_setWidth]
  omega

@[simp] theorem toInt_extendView_s8 (r : Byte) : (extendView .s8 (r.setWidth 32)).toInt = r.toInt := by
  have hr : (r.setWidth 32).setWidth 8 = r := by simp
  rw [extendView, hr, BitVec.toInt_signExtend_of_le (by decide)]

@[simp] theorem toInt_extendView_s16 (r : Half) : (extendView .s16 (r.setWidth 32)).toInt = r.toInt := by
  have hr : (r.setWidth 32).setWidth 16 = r := by simp
  rw [extendView, hr, BitVec.toInt_signExtend_of_le (by decide)]

@[simp] theorem extendView_bits32 (v : Word) : extendView .bits32 v = v := rfl

/-- The three flags are bits 0 to 2, so their sum is at most 7 and fits the word (10_state.md R18). -/
@[simp] theorem toNat_flagsWord (s : State) :
    (flagsWord s).toNat = s.calValid.toNat + 2 * s.rawValid.toNat + 4 * s.tfValid.toNat := by
  have hc := s.calValid.toNat_le
  have hr := s.rawValid.toNat_le
  have ht := s.tfValid.toNat_le
  rw [flagsWord, BitVec.toNat_ofNat]
  omega

/-! ### The view of a written register -/

theorem registerWritten_le {s : State} {n : Nat} (h : registerWritten s n = true) : n ≤ 26 := by
  by_contra hn
  rw [registerWritten, if_neg (by omega), if_neg (by omega), if_neg (by omega), if_neg (by omega)] at h
  exact hn (of_decide_eq_true h)

theorem registerView_of_written {s : State} {n : Nat} (h : registerWritten s n = true) :
    registerView s n = extendView (registerKind n) (registerBits s n) := by
  rw [registerView, if_pos h]

/-- `HRR` answers the view the register has before the operation is taken from the queue. -/
theorem step_hrr {s : State} {n : Nat} {rest : List HostOp} (h : s.pending = .hrr n :: rest) :
    ∃ t, step s = .next t ∧ t.answer = .view (registerView s n) :=
  ⟨_, step_op h, rfl⟩

end Sys2Proof.Machine

namespace Sys2Proof.Proofs

open Sys2Proof.Machine

/-- Settles O12: a written register's view is the extension of its type applied to its bits, which in each row
of the table gives back the register's value. -/
theorem registerViewsFollowTable : Obligations.RegisterViewsFollowTable := by
  unfold Obligations.RegisterViewsFollowTable
  intro s n rest hp hw
  obtain ⟨t, hstep, hanswer⟩ := step_hrr hp
  rw [registerView_of_written hw] at hanswer
  refine ⟨t, _, hstep, hanswer, ?_⟩
  -- one pass per row of the table, numbers 0 to 26
  iterate 27 refine ⟨fun hn => by subst hn; simp [registerKind, registerBits], ?_⟩
  exact registerWritten_le hw

end Sys2Proof.Proofs
end

section
/-! PROOFS. Encoding (30_encoding.md): the decoder and the encoder are inverse on the commands, which gives the ten
legal words of R64 and the algorithm of R66; the operations a pseudo-instruction of R68 expands into. -/

namespace Sys2Proof

/-! ### The fields of a word -/

/-- The three fields of Format C tile the word (30_encoding.md R60). -/
theorem joinFields_splitWord (w : Byte) : joinFields (splitWord w) = w := by
  revert w
  decide

theorem splitWord_encode (i : Instr) : splitWord (encode i) = i.fields := by
  cases i with
  | calunpack => exact Laws.WordFields.calunpack.1
  | rawparse => exact Laws.WordFields.rawparse.1
  | compensate sel => exact (Laws.WordFields.compensate sel).1

theorem wellFormed_fields (i : Instr) : i.fields.wellFormed = true := by
  cases i <;> rfl

theorem commandOf_fields (i : Instr) : commandOf i.fields = i := by
  cases i <;> rfl

/-- The checks of 30_encoding.md R64 as alternatives on the fields. -/
theorem wellFormed_iff (f : CommandFields) :
    f.wellFormed = true ↔ (f.op = 1 ∨ f.op = 2 ∨ f.op = 3) ∧ f.z = 0 ∧ (f.op = 3 ∨ f.sel = 0) := by
  simp [CommandFields.wellFormed, CommandFields.opAssigned, CommandFields.zClear, CommandFields.selAllowed,
    or_assoc, and_assoc]

/-- Fields that pass every check carry nothing beyond the command they name. -/
theorem fields_commandOf {f : CommandFields} (h : f.wellFormed = true) : (commandOf f).fields = f := by
  obtain ⟨op, z, sel⟩ := f
  obtain ⟨hop, hz, hsel⟩ := (wellFormed_iff _).1 h
  dsimp only at hop hz hsel
  subst hz
  obtain rfl | rfl | rfl := hop
  · obtain rfl := hsel.resolve_left (by decide)
    rfl
  · obtain rfl := hsel.resolve_left (by decide)
    rfl
  · rfl

/-! ### The decoder -/

theorem decode_eq_command_iff_fields {w : Byte} {i : Instr} :
    decode w = .command i ↔ (splitWord w).wellFormed = true ∧ commandOf (splitWord w) = i := by
  simp only [decode, CommandFields.wellFormed]
  split_ifs with hop hz hsel
  · simp [hop]
  · simp [hz]
  · simp [hsel]
  · simp [hop, hz, hsel]

/-- A word decodes to a command exactly when it is the command's encoding. -/
theorem decode_eq_command_iff {w : Byte} {i : Instr} : decode w = .command i ↔ encode i = w := by
  rw [decode_eq_command_iff_fields]
  constructor
  · rintro ⟨hwf, rfl⟩
    rw [encode, fields_commandOf hwf, joinFields_splitWord]
  · rintro rfl
    rw [splitWord_encode]
    exact ⟨wellFormed_fields i, commandOf_fields i⟩

theorem instr?_eq_some_iff {d : Decoded} {i : Instr} : d.instr? = some i ↔ d = .command i := by
  cases d <;> simp [Decoded.instr?]

theorem exists_reserved {d : Decoded} (h : ∀ i, d ≠ .command i) : ∃ why, d = .reserved why := by
  cases d with
  | command i => exact absurd rfl (h i)
  | reserved why => exact ⟨why, rfl⟩

/-! ### The words of the commands -/

theorem encode_calunpack : encode .calunpack = 0x10 := rfl

theorem encode_rawparse : encode .rawparse = 0x20 := rfl

/-- The mask of R66 leaves `op` and `z`, which are the same for every selector. -/
theorem encode_compensate_mask (sel : Sel) : encode (.compensate sel) &&& 0xF8 = 0x30 := by
  revert sel
  decide

/-- Under the mask of R66 a word is free only in its selector bits. -/
theorem encode_compensate_extract {w : Byte} (h : w &&& 0xF8 = 0x30) :
    encode (.compensate (w.extractLsb' 0 3)) = w := by
  revert w
  decide

/-- The words of the commands, in the terms of R66. -/
theorem exists_encode_iff {w : Byte} :
    (∃ i, encode i = w) ↔ w = 0x10 ∨ w = 0x20 ∨ w &&& 0xF8 = 0x30 := by
  constructor
  · rintro ⟨i, rfl⟩
    cases i with
    | calunpack => exact .inl encode_calunpack
    | rawparse => exact .inr (.inl encode_rawparse)
    | compensate sel => exact .inr (.inr (encode_compensate_mask sel))
  · rintro (rfl | rfl | hmask)
    · exact ⟨_, encode_calunpack⟩
    · exact ⟨_, encode_rawparse⟩
    · exact ⟨_, encode_compensate_extract hmask⟩

/-- The ten words that R64 lists are those that the masks of R66 let through. -/
theorem mem_legalWords_iff (w : Byte) :
    w ∈ [0x10, 0x20, 0x30, 0x31, 0x32, 0x33, 0x34, 0x35, 0x36, 0x37] ↔
      w = 0x10 ∨ w = 0x20 ∨ w &&& 0xF8 = 0x30 := by
  revert w
  decide

end Sys2Proof

namespace Sys2Proof.Machine

/-! ### `HCMD` of a reserved word -/

theorem step_hcmd_reserved {s : State} {w : Byte} {rest : List HostOp} {why : ReservedWord}
    (hp : s.pending = .hcmd w :: rest) (hd : decode w = .reserved why) :
    step s = .next (answerStatus (raiseFault .illegalCommand (withPending s rest))) := by
  rw [step_op hp]
  exact hostCommand_reserved hd _

/-! ### `LDBUF` -/

theorem length_ldbuf (base : Byte) (bs : List Byte) : (ldbuf base bs).length = bs.length := by
  induction bs generalizing base with
  | nil => rfl
  | cons b bs ih => simp [ldbuf, ih]

/-- For every base, with the wrap of log entry 19. -/
theorem getElem?_ldbuf (base : Byte) (bs : List Byte) (i : Nat) :
    (ldbuf base bs)[i]? = bs[i]?.map (HostOp.hwb (base + BitVec.ofNat 8 i)) := by
  induction bs generalizing base i with
  | nil => rfl
  | cons b bs ih =>
    cases i with
    | zero => simp [ldbuf]
    | succ i =>
      have haddr : base + 1 + BitVec.ofNat 8 i = base + BitVec.ofNat 8 (i + 1) := by
        rw [BitVec.ofNat_add]
        ac_rfl
      rw [ldbuf, List.getElem?_cons_succ, List.getElem?_cons_succ, ih, haddr]

end Sys2Proof.Machine

namespace Sys2Proof.Proofs

open Sys2Proof.Machine

/-- Settles O3: the legal words are the encodings of the commands, and a word without a command is reserved. -/
theorem reservedWordsChangeOnlyStatus : Obligations.ReservedWordsChangeOnlyStatus := by
  unfold Obligations.ReservedWordsChangeOnlyStatus
  constructor
  · intro w
    simp only [decode_eq_command_iff]
    rw [exists_encode_iff, mem_legalWords_iff]
  · intro w s rest hp hw
    obtain ⟨why, hd⟩ := exists_reserved hw
    rw [step_hcmd_reserved hp hd]
    rfl

/-- Settles O1: each arm of the algorithm names the command that the word encodes, and outside the arms a word
encodes none. -/
theorem decodeFollowsAlgorithm : Obligations.DecodeFollowsAlgorithm := by
  unfold Obligations.DecodeFollowsAlgorithm
  intro w
  constructor
  · split_ifs with hcal hraw hmask
    · rw [instr?_eq_some_iff, decode_eq_command_iff, hcal, encode_calunpack]
    · rw [instr?_eq_some_iff, decode_eq_command_iff, hraw, encode_rawparse]
    · rw [instr?_eq_some_iff, decode_eq_command_iff, encode_compensate_extract hmask]
    · rw [Option.eq_none_iff_forall_ne_some]
      intro i hi
      rw [instr?_eq_some_iff, decode_eq_command_iff] at hi
      obtain h | h | h := exists_encode_iff.1 ⟨i, hi⟩
      exacts [hcal h, hraw h, hmask h]
  · intro hnone s
    have hno : ∀ i, decode w ≠ .command i := fun i hi => by
      rw [instr?_eq_some_iff.2 hi] at hnone
      cases hnone
    obtain ⟨why, hd⟩ := exists_reserved hno
    exact hostCommand_reserved hd s

/-- Settles O5: `LDBUF` by induction on its bytes, the rest by writing the expansions out. -/
theorem pseudoInstructionsExpand : Obligations.PseudoInstructionsExpand := by
  unfold Obligations.PseudoInstructionsExpand
  refine ⟨fun base bs hfit => ⟨length_ldbuf base bs, fun i b hb => ?_⟩, fun _ _ => rfl, fun _ => rfl, by decide⟩
  obtain ⟨hi, -⟩ := List.getElem?_eq_some_iff.1 hb
  refine ⟨base + BitVec.ofNat 8 i, ?_, by rw [getElem?_ldbuf, hb]; rfl⟩
  rw [BitVec.toNat_add, BitVec.toNat_ofNat]
  omega

end Sys2Proof.Proofs
end

section
/-! PROOFS. The datapath's arithmetic (40_datapath_arithmetic.md R80): what fixes the wrapped value of an integer among
the integers congruent to it. -/

namespace Sys2Proof.Machine

/-! ### The wrapped value of an integer -/

theorem wrapInt_emod (z : Int) : wrapInt z % 4294967296 = z % 4294967296 := by
  rw [wrapInt]
  omega

theorem wrapInt_congr {y z : Int} (h : y % 4294967296 = z % 4294967296) : wrapInt y = wrapInt z := by
  rw [wrapInt, wrapInt, Int.add_emod y, Int.add_emod z, h]

/-- An integer of the signed range is its own wrapped value, so it is that of every integer congruent to it. -/
theorem eq_wrapInt_of_range_of_emod {r z : Int} (h₁ : -2147483648 ≤ r) (h₂ : r ≤ 2147483647)
    (h : r % 4294967296 = z % 4294967296) : r = wrapInt z :=
  calc
    r = wrapInt r := (wrapInt_of_range h₁ h₂).symm
    _ = wrapInt z := wrapInt_congr h

end Sys2Proof.Machine

namespace Sys2Proof.Proofs

open Sys2Proof.Machine

/-- Settles O47: `wrap32` is the wrapped integer, which its range and its residue fix; the model defines each signed
operation as `wrap32` of the exact result. -/
theorem signedOperationsWrap : Obligations.SignedOperationsWrap := by
  unfold Obligations.SignedOperationsWrap
  refine ⟨fun z => ?_, fun _ _ _ => ⟨rfl, rfl, rfl, fun _ => rfl⟩⟩
  rw [toInt_wrap32]
  obtain ⟨hlo, hhi⟩ := wrapInt_range z
  exact ⟨hlo, hhi, wrapInt_emod z, fun _ h₁ h₂ h => eq_wrapInt_of_range_of_emod h₁ h₂ h⟩

end Sys2Proof.Proofs
end

section
/-! PROOFS. `CALUNPACK` (41_calunpack.md): what the buffer bytes give as little-endian fields and as packed 12-bit values,
which bytes the coefficients depend on, and that `cal_valid` lasts until `RESET`. -/

namespace Sys2Proof.Machine

/-! ### Little-endian fields of the buffers (20_memory.md R45) -/

theorem le16At_of_holdsBytes {s : State} {a n : Nat} {b : Nat → Byte} (h : HoldsBytes s a n b) {i : Nat}
    (hi : i + 1 < n) : le16At s (a + i) = le16 (b i) (b (i + 1)) := by
  rw [le16At, Nat.add_assoc, commandByte_of_holds (h i (Nat.lt_of_succ_lt hi)), commandByte_of_holds (h (i + 1) hi)]

theorem toNat_le16At {s : State} {a n : Nat} {b : Nat → Byte} (h : HoldsBytes s a n b) (i : Nat) (hi : i + 1 < n) :
    (le16At s (a + i)).toNat = (b (i + 1)).toNat * 256 + (b i).toNat := by
  rw [le16At_of_holdsBytes h hi, toNat_le16]

theorem toInt_le16At {s : State} {a n : Nat} {b : Nat → Byte} (h : HoldsBytes s a n b) (i : Nat) (hi : i + 1 < n) :
    (le16At s (a + i)).toInt = sextNat 16 ((b (i + 1)).toNat * 256 + (b i).toNat) := by
  rw [le16At_of_holdsBytes h hi, toInt_le16]

/-! ### The packed 12-bit values (41_calunpack.md R106, R107) -/

theorem toInt_half (v : Half) : v.toInt = sextNat 16 v.toNat := by
  rw [BitVec.toInt_eq_toNat_cond, sextNat]
  split <;> split <;> omega

/-- The document's expression: both sides of the or as 16-bit patterns, the result read as signed. -/
theorem toInt_packed12_eq_or (high : Byte) (nibble : Half) :
    (packed12 high nibble).toInt =
      sextNat 16 ((sextNat 8 high.toNat * 16 % 65536).toNat ||| nibble.toNat) := by
  rw [toInt_half, packed12, BitVec.toNat_or, BitVec.toNat_ofInt, toInt_byte]
  rfl

theorem toInt_packed12_eq_sum (high : Byte) {nibble : Half} (h : nibble.toNat < 16) :
    (packed12 high nibble).toInt = sextNat 8 high.toNat * 16 + nibble.toNat := by
  rw [toInt_packed12 high nibble h, toInt_byte]

theorem toNat_lowNibble_eq_and (b : Byte) : (lowNibble b).toNat = b.toNat &&& 0x0F :=
  (toNat_lowNibble b).trans (Nat.and_two_pow_sub_one_eq_mod b.toNat 4).symm

theorem toNat_highNibble_eq_shiftRight (b : Byte) : (highNibble b).toNat = b.toNat >>> 4 :=
  (toNat_highNibble b).trans (Nat.shiftRight_eq_div_pow b.toNat 4).symm

theorem unpackH4_of_holds {s : State} {b0 b2 : Byte} (h0 : HoldsByte s 0xE4 b0) (h2 : HoldsByte s 0xE6 b2) :
    unpackH4 hpackLayout s = packed12 b0 (lowNibble b2) :=
  congrArg₂ (fun high low => packed12 high (lowNibble low)) (commandByte_of_holds h0) (commandByte_of_holds h2)

theorem unpackH5_of_holds {s : State} {b1 b2 : Byte} (h1 : HoldsByte s 0xE5 b1) (h2 : HoldsByte s 0xE6 b2) :
    unpackH5 hpackLayout s = packed12 b1 (highNibble b2) :=
  congrArg₂ (fun high low => packed12 high (highNibble low)) (commandByte_of_holds h1) (commandByte_of_holds h2)

/-! ### The bytes the coefficients depend on (41_calunpack.md R101 to R108, R111) -/

/-- The addresses of `CALTP` and `CALH` without that of `CALTP[24]`. -/
abbrev UsedByCalunpack (a : Nat) : Prop :=
  (0x88 ≤ a ∧ a ≤ 0xA1 ∧ a ≠ 0xA0) ∨ (0xE1 ≤ a ∧ a ≤ 0xE7)

theorem unpackCoefficients_congr {s s' : State}
    (h : ∀ a, UsedByCalunpack a → commandByte s' a = commandByte s a) :
    unpackCoefficients s' = unpackCoefficients s := by
  have hpair : ∀ a, UsedByCalunpack a → UsedByCalunpack (a + 1) → le16At s' a = le16At s a := fun a ha ha' => by
    rw [le16At, le16At, h a ha, h (a + 1) ha']
  have hpacked4 : unpackH4 hpackLayout s' = unpackH4 hpackLayout s := by
    rw [unpackH4, unpackH4, h _ (by decide), h _ (by decide)]
  have hpacked5 : unpackH5 hpackLayout s' = unpackH5 hpackLayout s := by
    rw [unpackH5, unpackH5, h _ (by decide), h _ (by decide)]
  simp (disch := decide) only [unpackCoefficients, hpair, h, hpacked4, hpacked5]

theorem isSome_read_of_calibrationLoaded {s : State} (h : CalibrationLoaded s) {a : Nat} (ha : UsedByCalunpack a) :
    (Memory.read s.mem a).isSome := by
  obtain ⟨htp, hhum⟩ := h
  rcases ha with ⟨hlo, hhi, hne⟩ | ⟨hlo, hhi⟩
  · obtain ⟨i, rfl⟩ := Nat.exists_eq_add_of_le hlo
    exact htp i (by omega) (by omega)
  · obtain ⟨i, rfl⟩ := Nat.exists_eq_add_of_le hlo
    exact hhum i (by omega)

/-- Of a written byte a command sees no free value, so the two states' epochs do not matter. -/
theorem commandByte_congr {s s' : State} {a : Nat} (hs : (Memory.read s.mem a).isSome)
    (h : Memory.read s'.mem a = Memory.read s.mem a) : commandByte s' a = commandByte s a := by
  obtain ⟨b, hb⟩ := Option.isSome_iff_exists.1 hs
  rw [commandByte_of_holds (h.trans hb), commandByte_of_holds hb]

/-! ### `cal_valid` is cleared by `RESET` alone (10_state.md R22) -/

theorem exec_keeps_calValid {i : Instr} {s t : State} (h : exec i s = .next t) (hs : s.calValid = true) :
    t.calValid = true := by
  cases i with
  | calunpack => rw [exec_calunpack] at h; cases h; rfl
  | rawparse => rw [exec_rawparse] at h; cases h; simpa using hs
  | compensate sel =>
    by_cases hr : s.rawValid = true
    · rw [exec_compensate_present sel hs hr] at h; cases h; simpa using hs
    · rw [exec_compensate_absent sel (.inr (by simpa using hr))] at h; cases h; simpa using hs

theorem hostWriteByte_calValid (a b : Byte) (s : State) : (hostWriteByte a b s).calValid = s.calValid := by
  unfold hostWriteByte
  split <;> simp

theorem performHostOp_keeps_calValid {op : HostOp} {s t : State} (h : performHostOp op s = .next t)
    (hr : op ≠ .reset) (hs : s.calValid = true) : t.calValid = true := by
  rcases performHostOp_cases h with ⟨a, b, rfl, rfl⟩ | ⟨a, rfl, rfl⟩ | ⟨n, rfl, rfl⟩ | ⟨w, i, u, rfl, _, hu, rfl⟩ |
    ⟨w, why, rfl, _, rfl⟩ | ⟨rfl, rfl⟩
  · rwa [hostWriteByte_calValid]
  · exact hs
  · exact hs
  · rw [answerStatus_calValid]
    exact exec_keeps_calValid hu hs
  · exact hs
  · exact absurd rfl hr

end Sys2Proof.Machine

namespace Sys2Proof.Proofs

open Sys2Proof.Machine

/-- Settles O20: the three pairs of the six bytes, `T1` read as unsigned. -/
theorem calunpackTemperatureFields : Obligations.CalunpackTemperatureFields := by
  unfold Obligations.CalunpackTemperatureFields
  intro s b h
  exact ⟨_, exec_calunpack s, toNat_le16At h 0 (by decide), toInt_le16At h 2 (by decide), toInt_le16At h 4 (by decide)⟩

/-- Settles O21: the nine pairs of the eighteen bytes, `P1` read as unsigned. -/
theorem calunpackPressureFields : Obligations.CalunpackPressureFields := by
  unfold Obligations.CalunpackPressureFields
  intro s b h
  exact ⟨_, exec_calunpack s, toNat_le16At h 0 (by decide), toInt_le16At h 2 (by decide),
    toInt_le16At h 4 (by decide), toInt_le16At h 6 (by decide), toInt_le16At h 8 (by decide),
    toInt_le16At h 10 (by decide), toInt_le16At h 12 (by decide), toInt_le16At h 14 (by decide),
    toInt_le16At h 16 (by decide)⟩

/-- Settles O22: `H1`, `H3` and `H6` are single bytes, `H2` is the pair at the start of `CALH`. -/
theorem calunpackHumidityFields : Obligations.CalunpackHumidityFields := by
  unfold Obligations.CalunpackHumidityFields
  intro s a b ha h
  have h1 : commandByte s 0xA1 = a := commandByte_of_holds ha
  have h3 : commandByte s 0xE3 = b 2 := commandByte_of_holds (h 2 (by decide))
  have h6 : commandByte s 0xE7 = b 6 := commandByte_of_holds (h 6 (by decide))
  refine ⟨_, exec_calunpack s, congrArg BitVec.toNat h1, toInt_le16At h 0 (by decide), congrArg BitVec.toNat h3, ?_⟩
  exact (congrArg BitVec.toInt h6).trans (toInt_byte (b 6))

/-- Settles O23: each packed value is the document's or, and a sum because the nibble fills the empty low bits. -/
theorem calunpackPackedFields : Obligations.CalunpackPackedFields := by
  unfold Obligations.CalunpackPackedFields
  intro s b0 b1 b2 h0 h1 h2
  refine ⟨_, exec_calunpack s, ?_⟩
  simp only [completeOk_coef, flagCalibrated_coef, withCoefficients_coef, unpackCoefficients,
    unpackH4_of_holds h0 h2, unpackH5_of_holds h1 h2]
  rw [← toNat_lowNibble_eq_and, ← toNat_highNibble_eq_shiftRight, ← toNat_lowNibble, ← toNat_highNibble]
  exact ⟨toInt_packed12_eq_or _ _, toInt_packed12_eq_sum _ (lowNibble_lt b2),
    toInt_packed12_eq_or _ _, toInt_packed12_eq_sum _ (highNibble_lt b2)⟩

/-- Settles O25: the fields `CALUNPACK` leaves, and that no host operation but `RESET` clears `cal_valid`. -/
theorem calunpackCompletesAndValidates : Obligations.CalunpackCompletesAndValidates := by
  unfold Obligations.CalunpackCompletesAndValidates
  constructor
  · intro s
    exact ⟨_, exec_calunpack s, by simp [statusOk]⟩
  · intro s t op rest hs hp hr ht
    rw [step_op hp] at ht
    exact performHostOp_keeps_calValid ht hr hs

/-- Settles O27: the coefficients depend on the used bytes alone, and these are written and the same. -/
theorem calunpackIgnoresUnusedByte : Obligations.CalunpackIgnoresUnusedByte := by
  unfold Obligations.CalunpackIgnoresUnusedByte
  intro s s' hloaded hmem
  have hcoef : unpackCoefficients s' = unpackCoefficients s :=
    unpackCoefficients_congr fun a ha => commandByte_congr (isSome_read_of_calibrationLoaded hloaded ha) (hmem a ha)
  exact ⟨_, _, exec_calunpack s, exec_calunpack s', by simp [hcoef]⟩

end Sys2Proof.Proofs
end

section
/-! PROOFS. `RAWPARSE` (42_rawparse.md): the fields of a loaded burst, as the document's shift-and-or expressions and
with the 20-bit range. -/

namespace Sys2Proof.Machine

/-! ### The document's expressions (42_rawparse.md R121 to R123) -/

/-- No bit is lost to the 32-bit width, so the expression is the same on numbers. -/
theorem toNat_setWidth_shiftLeft_byte (b : Byte) {k : Nat} (hk : k ≤ 16) :
    (b.setWidth 32 <<< k).toNat = b.toNat <<< k := by
  rw [toNat_shiftUp b hk, Nat.shiftLeft_eq]

theorem toNat_burst20_eq_or (b0 b1 b2 : Byte) :
    (burst20 b0 b1 b2).toNat = b0.toNat <<< 12 ||| b1.toNat <<< 4 ||| b2.toNat >>> 4 := by
  rw [burst20, BitVec.toNat_or, BitVec.toNat_or, toNat_setWidth_shiftLeft_byte b0 (by decide),
    toNat_setWidth_shiftLeft_byte b1 (by decide), BitVec.toNat_ushiftRight,
    BitVec.toNat_setWidth_of_le (by decide)]

theorem toNat_burst16_eq_or (b0 b1 : Byte) : (burst16 b0 b1).toNat = b0.toNat <<< 8 ||| b1.toNat := by
  rw [burst16, BitVec.toNat_or, toNat_setWidth_shiftLeft_byte b0 (by decide),
    BitVec.toNat_setWidth_of_le (by decide)]

/-- The sum of 42_rawparse.md R121 fits 20 bits. -/
theorem toNat_burst20_le (b0 b1 b2 : Byte) : (burst20 b0 b1 b2).toNat ≤ 1048575 := by
  have h0 := b0.isLt
  have h1 := b1.isLt
  have h2 := b2.isLt
  rw [toNat_burst20]
  omega

/-! ### A loaded burst -/

theorem parseRaw_of_holds {s : State} {b : Nat → Byte} (h : HoldsBytes s 0xF7 8 b) :
    parseRaw s = ⟨burst20 (b 0) (b 1) (b 2), burst20 (b 3) (b 4) (b 5), burst16 (b 6) (b 7)⟩ := by
  have hbyte : ∀ i < 8, commandByte s (0xF7 + i) = b i := fun i hi => commandByte_of_holds (h i hi)
  rw [parseRaw, ← hbyte 0 (by decide), ← hbyte 1 (by decide), ← hbyte 2 (by decide), ← hbyte 3 (by decide),
    ← hbyte 4 (by decide), ← hbyte 5 (by decide), ← hbyte 6 (by decide), ← hbyte 7 (by decide)]

end Sys2Proof.Machine

namespace Sys2Proof.Proofs

open Sys2Proof.Machine

/-- Settles O30: the two 20-bit fields and the 16-bit field of the eight bytes, each as the document's or and as the
sum. -/
theorem rawparseFields : Obligations.RawparseFields := by
  unfold Obligations.RawparseFields
  intro s b h
  refine ⟨_, exec_rawparse s, ?_⟩
  rw [completeOk_raw, flagSampled_raw, withRaw_raw, parseRaw_of_holds h]
  exact ⟨toNat_burst20_eq_or _ _ _, toNat_burst20 _ _ _, toNat_burst20_le _ _ _,
    toNat_burst20_eq_or _ _ _, toNat_burst20 _ _ _, toNat_burst20_le _ _ _,
    toNat_burst16_eq_or _ _, toNat_burst16 _ _⟩

/-- Settles O31: the fields of the state `RAWPARSE` leaves, whatever the burst holds. -/
theorem rawparseCompletesAndValidates : Obligations.RawparseCompletesAndValidates := by
  unfold Obligations.RawparseCompletesAndValidates
  intro s
  exact ⟨_, exec_rawparse s, by simp [statusOk]⟩

end Sys2Proof.Proofs
end

section
/-! PROOFS. `COMPENSATE` (43_compensate.md): which status a command ends with, the sequence for every selector, and
`COMPENSATE NONE`. -/

namespace Sys2Proof.Machine

/-! ### The status a command ends with (10_state.md R17) -/

@[simp] theorem toInt_statusOk : statusOk.toInt = 0 := rfl

@[simp] theorem toInt_faultCode_nullReference : (faultCode .nullReference).toInt = -1 := rfl

/-- Only `COMPENSATE` raises a fault; the two other commands write `OK` (60_exceptions.md R211). -/
theorem exec_status_of_ne_compensate {i : Instr} {s t : State} (h : exec i s = .next t)
    (hi : ∀ sel, i ≠ .compensate sel) : t.status = statusOk := by
  cases i with
  | calunpack => rw [exec_calunpack] at h; cases h; exact completeOk_status _
  | rawparse => rw [exec_rawparse] at h; cases h; exact completeOk_status _
  | compensate sel => exact absurd rfl (hi sel)

/-! ### The stages read the `TFINE` just written (43_compensate.md R134) -/

variable (sel : Sel) (s : State)

theorem compensateStages_tfine_ne {sel : Sel} (h : sel ≠ 0) : (compensateStages sel s).tfine = nextTfine s := by
  rw [compensateStages_tfine, if_neg h]

/-- A set pressure bit means a selector other than 0, so the temperature stage has run. -/
theorem compensateStages_out_p_eq_stage :
    (compensateStages sel s).out.p =
      if sel.getLsbD 0 then stagePressure s.raw.p (compensateStages sel s).tfine s.coef else 0 := by
  rw [compensateStages_out_p, selectsPressure_eq]
  split
  next hp => rw [compensateStages_tfine_ne s (sel_ne_zero_of_pressure hp)]
  next => rfl

/-- A set humidity bit means a selector other than 0, so the temperature stage has run. -/
theorem compensateStages_out_h_eq_stage :
    (compensateStages sel s).out.h =
      if sel.getLsbD 2 then stageHumidity s.raw.h (compensateStages sel s).tfine s.coef else 0 := by
  rw [compensateStages_out_h, selectsHumidity_eq]
  split
  next hh => rw [compensateStages_tfine_ne s (sel_ne_zero_of_humidity hh)]
  next => rfl

/-- Once the temperature stage has run, `OUT_T` is a function of `TFINE` and bit 1 (43_compensate.md R135). -/
theorem compensateStages_out_t_eq_reading {sel : Sel} (h : sel ≠ 0) :
    (compensateStages sel s).out.t =
      if sel.getLsbD 1 then temperatureReading (compensateStages sel s).tfine
      else unselectedTemperature (temperatureReading (compensateStages sel s).tfine) := by
  rw [compensateStages_out_t, if_neg h, compensateStages_tfine_ne s h, selectsTemperature_eq]

/-- `COMPENSATE NONE` leaves the outputs as ZERO wrote them (43_compensate.md R136). -/
theorem compensateStages_zero : compensateStages 0 s = zeroOutputs s := rfl

end Sys2Proof.Machine

namespace Sys2Proof.Proofs

open Sys2Proof.Machine

/-- Settles O36: the state both paths leave, and each stage's output on the `TFINE` just written. -/
theorem compensateFollowsSequence : Obligations.CompensateFollowsSequence := by
  unfold Obligations.CompensateFollowsSequence
  refine ⟨fun s sel h => exec_compensate_absent sel h, fun s sel hc hr =>
    ⟨_, exec_compensate_present sel hc hr, toInt_statusOk, ?zero, ?nonzero,
      compensateStages_out_p_eq_stage sel s, compensateStages_out_h_eq_stage sel s⟩⟩
  case zero =>
    rintro rfl
    rw [compensateStages_zero]
    exact ⟨rfl, rfl, rfl⟩
  case nonzero =>
    intro h
    have hvalid : (compensateStages sel s).tfValid = true := by rw [compensateStages_tfValid, if_neg h]
    exact ⟨compensateStages_tfine_ne s h, hvalid, compensateStages_out_t_eq_reading s h⟩

/-- Settles O37: for selector 0 the stages are ZERO alone. -/
theorem compensateNoneZeroesOutputs : Obligations.CompensateNoneZeroesOutputs := by
  unfold Obligations.CompensateNoneZeroesOutputs
  intro s hc hr
  refine ⟨_, exec_compensate_present 0 hc hr, ?_⟩
  rw [compensateStages_zero]
  simp

/-- Settles O38: the status where both flags are set, and where one is clear. -/
theorem compensateStatusIsOkOrNullReference : Obligations.CompensateStatusIsOkOrNullReference := by
  unfold Obligations.CompensateStatusIsOkOrNullReference
  intro s sel
  by_cases h : s.calValid = true ∧ s.rawValid = true
  · obtain ⟨hc, hr⟩ := h
    exact ⟨_, exec_compensate_present sel hc hr, by simp [hc, hr]⟩
  · have habsent : s.calValid = false ∨ s.rawValid = false := by simpa [Decidable.or_iff_not_imp_left] using h
    exact ⟨_, exec_compensate_absent sel habsent, by simp [h]⟩

/-- Settles O35: a raised fault is the same state with the fault's code, and the other commands write `OK`. -/
theorem compensateWithoutInputsFaults : Obligations.CompensateWithoutInputsFaults := by
  unfold Obligations.CompensateWithoutInputsFaults
  refine ⟨fun s sel h => exec_compensate_absent sel h, fun i s t ht hstatus => ?_⟩
  by_contra hi
  have hok : t.status = statusOk := exec_status_of_ne_compensate ht (not_exists.mp hi)
  rw [hok, toInt_statusOk] at hstatus
  exact absurd hstatus (by decide)

end Sys2Proof.Proofs
end

section
/-! PROOFS. Host access (47_host_access.md): the step that performs `HWB`, at a mapped and at an unmapped
address. -/

namespace Sys2Proof.Machine

/-- The three windows of the address map (20_memory.md R48). -/
theorem mapped_iff {a : Nat} :
    mapped a = true ↔ (0x88 ≤ a ∧ a ≤ 0xA1) ∨ (0xE1 ≤ a ∧ a ≤ 0xE7) ∨ (0xF7 ≤ a ∧ a ≤ 0xFE) := by
  simp only [mapped, Bool.or_eq_true, Bool.and_eq_true, Nat.ble_eq, or_assoc]

/-! ### `HWB` (47_host_access.md R201) -/

theorem hostWriteByte_of_mapped {addr : Byte} (h : mapped addr.toNat = true) (byte : Byte) (s : State) :
    hostWriteByte addr byte s = withAnswer (withMemory s (Memory.write s.mem addr.toNat byte)) .nothing := by
  rw [hostWriteByte, if_pos h]

theorem hostWriteByte_of_not_mapped {addr : Byte} (h : ¬ mapped addr.toNat = true) (byte : Byte) (s : State) :
    hostWriteByte addr byte s = withAnswer s .nothing := by
  rw [hostWriteByte, if_neg h]

theorem step_hwb {s : State} {addr byte : Byte} {rest : List HostOp} (h : s.pending = .hwb addr byte :: rest) :
    step s = .next (hostWriteByte addr byte (withPending s rest)) :=
  step_op h

end Sys2Proof.Machine

namespace Sys2Proof.Proofs

open Sys2Proof.Machine

/-- Settles O10: at a mapped address only the memory differs, by one write; at an unmapped address not even the
memory does. -/
theorem hostWriteStoresOneByte : Obligations.HostWriteStoresOneByte := by
  unfold Obligations.HostWriteStoresOneByte
  intro s addr byte rest hp
  refine ⟨_, step_hwb hp, ?_⟩
  rw [← mapped_iff]
  by_cases hm : mapped addr.toNat = true
  · rw [hostWriteByte_of_mapped hm]
    exact ⟨rfl, rfl, rfl, rfl, rfl, rfl, rfl, rfl, rfl, fun a ha => memory_read_write_other s.mem byte ha,
      fun _ => memory_read_write_same s.mem addr.toNat byte, fun hn => absurd hm hn⟩
  · rw [hostWriteByte_of_not_mapped hm]
    exact ⟨rfl, rfl, rfl, rfl, rfl, rfl, rfl, rfl, rfl, fun _ _ => rfl, fun h => absurd h hm, fun _ => rfl⟩

end Sys2Proof.Proofs
end

section
/-! PROOFS. Encoding (30_encoding.md): the statements that follow from decoding and encoding being inverse, and the
addresses of `LDBUF` past 0xFF. -/

namespace Sys2Proof.Proofs

open Sys2Proof.Machine

/-- Settles O4: both halves say that a word decodes to a command exactly when it is the command's encoding. -/
theorem decodeEncodeAgree : Obligations.DecodeEncodeAgree := by
  unfold Obligations.DecodeEncodeAgree
  exact ⟨fun i => decode_eq_command_iff.2 rfl, fun w i h => decode_eq_command_iff.1 h⟩

/-- Settles O2: the twelve words are closed, so the decoder runs on each. -/
theorem specWordsDecode : Obligations.SpecWordsDecode := by
  unfold Obligations.SpecWordsDecode
  decide

/-- Settles O55: an 8-bit sum is the sum of the numbers modulo 256. -/
theorem ldbufAddressWraps : Obligations.LdbufAddressWraps := by
  unfold Obligations.LdbufAddressWraps
  intro base bs i
  have haddr : base + BitVec.ofNat 8 i = BitVec.ofNat 8 ((base.toNat + i) % 256) := by
    apply BitVec.eq_of_toNat_eq
    rw [BitVec.toNat_add, BitVec.toNat_ofNat, BitVec.toNat_ofNat]
    omega
  rw [getElem?_ldbuf, haddr]

end Sys2Proof.Proofs
end

section
/-! PROOFS. Single steps of the machine (47_host_access.md): what each host operation does to the registers, the flags
and the queue, and what the event `RESET` leaves. -/

namespace Sys2Proof

theorem encode_injective {i j : Instr} (h : encode i = encode j) : i = j := by
  have hj : decode (encode i) = .command j := decode_eq_command_iff.2 h.symm
  rw [decode_eq_command_iff.2 rfl] at hj
  exact Decoded.command.inj hj

end Sys2Proof

namespace Sys2Proof.Machine

/-! ### Every step answers a next state (70_reset_and_hazards.md R242) -/

theorem performHostOp_next (op : HostOp) (s : State) : ∃ t, performHostOp op s = .next t := by
  cases op with
  | hwb a b => exact ⟨_, rfl⟩
  | hrb a => exact ⟨_, rfl⟩
  | hrr n => exact ⟨_, rfl⟩
  | hcmd w =>
    cases hd : decode w with
    | command i =>
      obtain ⟨t, ht⟩ := exec_next i s
      exact ⟨_, (hostCommand_command hd s).trans (congrArg returnFromCommand ht)⟩
    | reserved why => exact ⟨_, hostCommand_reserved hd s⟩
  | reset => exact ⟨_, rfl⟩

theorem step_next (s : State) : ∃ t, step s = .next t := by
  cases hp : s.pending with
  | nil => exact ⟨s, step_idle hp⟩
  | cons op rest => rw [step_op hp]; exact performHostOp_next op _

theorem step_hcmd_command {s t : State} {w : Byte} {i : Instr} {rest : List HostOp}
    (hp : s.pending = .hcmd w :: rest) (hd : decode w = .command i) (ht : exec i (withPending s rest) = .next t) :
    step s = .next (answerStatus t) := by
  rw [step_op hp]
  exact (hostCommand_command hd _).trans (congrArg returnFromCommand ht)

/-! ### The two paths of `COMPENSATE` (43_compensate.md R131, R132) -/

theorem exec_compensate_cases {sel : Sel} {s t : State} (h : exec (.compensate sel) s = .next t) :
    (s.calValid = true ∧ s.rawValid = true ∧ t = completeOk (compensateStages sel s)) ∨
    ((s.calValid = false ∨ s.rawValid = false) ∧ t = raiseFault .nullReference s) := by
  by_cases hv : s.calValid = true ∧ s.rawValid = true
  · obtain ⟨hc, hr⟩ := hv
    rw [exec_compensate_present sel hc hr] at h
    exact .inl ⟨hc, hr, by cases h; rfl⟩
  · have habsent : s.calValid = false ∨ s.rawValid = false := by simpa [Decidable.or_iff_not_imp_left] using hv
    rw [exec_compensate_absent sel habsent] at h
    exact .inr ⟨habsent, by cases h; rfl⟩

/-! ### The registers a host operation keeps -/

/-- The registers, the flags and the marks of written registers are the same in the two states; `STATUS`, the buffers
and the host's own fields are not compared. -/
structure SameRegisters (s t : State) : Prop where
  coef : t.coef = s.coef
  raw : t.raw = s.raw
  tfine : t.tfine = s.tfine
  out : t.out = s.out
  calValid : t.calValid = s.calValid
  rawValid : t.rawValid = s.rawValid
  tfValid : t.tfValid = s.tfValid
  tfineWritten : t.tfineWritten = s.tfineWritten
  outWritten : t.outWritten = s.outWritten

theorem SameRegisters.trans {s t u : State} (h : SameRegisters s t) (h' : SameRegisters t u) : SameRegisters s u where
  coef := h'.coef.trans h.coef
  raw := h'.raw.trans h.raw
  tfine := h'.tfine.trans h.tfine
  out := h'.out.trans h.out
  calValid := h'.calValid.trans h.calValid
  rawValid := h'.rawValid.trans h.rawValid
  tfValid := h'.tfValid.trans h.tfValid
  tfineWritten := h'.tfineWritten.trans h.tfineWritten
  outWritten := h'.outWritten.trans h.outWritten

theorem sameRegisters_withPending (s : State) (ops : List HostOp) : SameRegisters s (withPending s ops) :=
  ⟨rfl, rfl, rfl, rfl, rfl, rfl, rfl, rfl, rfl⟩

theorem sameRegisters_answerStatus (s : State) : SameRegisters s (answerStatus s) :=
  ⟨rfl, rfl, rfl, rfl, rfl, rfl, rfl, rfl, rfl⟩

/-- A fault changes no register but `STATUS` (60_exceptions.md R214). -/
theorem sameRegisters_raiseFault (e : CommandFault) (s : State) : SameRegisters s (raiseFault e s) :=
  ⟨rfl, rfl, rfl, rfl, rfl, rfl, rfl, rfl, rfl⟩

theorem sameRegisters_hostReadByte (a : Byte) (s : State) : SameRegisters s (hostReadByte a s) :=
  ⟨rfl, rfl, rfl, rfl, rfl, rfl, rfl, rfl, rfl⟩

theorem sameRegisters_hostReadRegister (n : Nat) (s : State) : SameRegisters s (hostReadRegister n s) :=
  ⟨rfl, rfl, rfl, rfl, rfl, rfl, rfl, rfl, rfl⟩

theorem sameRegisters_hostWriteByte (a b : Byte) (s : State) : SameRegisters s (hostWriteByte a b s) := by
  by_cases hm : mapped a.toNat = true
  · rw [hostWriteByte_of_mapped hm]
    exact ⟨rfl, rfl, rfl, rfl, rfl, rfl, rfl, rfl, rfl⟩
  · rw [hostWriteByte_of_not_mapped hm]
    exact ⟨rfl, rfl, rfl, rfl, rfl, rfl, rfl, rfl, rfl⟩

theorem hostWriteByte_status (a b : Byte) (s : State) : (hostWriteByte a b s).status = s.status := by
  by_cases hm : mapped a.toNat = true
  · rw [hostWriteByte_of_mapped hm]; rfl
  · rw [hostWriteByte_of_not_mapped hm]; rfl

/-- To the registers a host operation is a command, a `RESET`, or nothing. -/
theorem performHostOp_registers {op : HostOp} {s t : State} (h : performHostOp op s = .next t) :
    (∃ i u, op = .hcmd (encode i) ∧ exec i s = .next u ∧ t = answerStatus u) ∨
    (op = .reset ∧ t = applyReset s) ∨
    ((∀ i, op ≠ .hcmd (encode i)) ∧ op ≠ .reset ∧ SameRegisters s t) := by
  rcases performHostOp_cases h with ⟨a, b, rfl, rfl⟩ | ⟨a, rfl, rfl⟩ | ⟨n, rfl, rfl⟩ | ⟨w, i, u, rfl, hd, hu, rfl⟩ |
    ⟨w, why, rfl, hd, rfl⟩ | ⟨rfl, rfl⟩
  · exact .inr (.inr ⟨nofun, nofun, sameRegisters_hostWriteByte a b s⟩)
  · exact .inr (.inr ⟨nofun, nofun, sameRegisters_hostReadByte a s⟩)
  · exact .inr (.inr ⟨nofun, nofun, sameRegisters_hostReadRegister n s⟩)
  · exact .inl ⟨i, u, congrArg HostOp.hcmd (decode_eq_command_iff.1 hd).symm, hu, rfl⟩
  · refine .inr (.inr ⟨fun i hi => ?_, nofun, (sameRegisters_raiseFault _ s).trans (sameRegisters_answerStatus _)⟩)
    rw [decode_eq_command_iff.2 (HostOp.hcmd.inj hi).symm] at hd
    cases hd
  · exact .inr (.inl ⟨rfl, rfl⟩)

/-- Only `HCMD` and `RESET` write `STATUS`. -/
theorem performHostOp_status {op : HostOp} {s t : State} (h : performHostOp op s = .next t)
    (hc : ∀ w, op ≠ .hcmd w) (hr : op ≠ .reset) : t.status = s.status := by
  rcases performHostOp_cases h with ⟨a, b, rfl, rfl⟩ | ⟨a, rfl, rfl⟩ | ⟨n, rfl, rfl⟩ | ⟨w, i, u, rfl, _, _, rfl⟩ |
    ⟨w, why, rfl, _, rfl⟩ | ⟨rfl, rfl⟩
  · exact hostWriteByte_status a b s
  · rfl
  · rfl
  · exact absurd rfl (hc w)
  · exact absurd rfl (hc w)
  · exact absurd rfl hr

/-! ### The status of an `HCMD` (10_state.md R17) -/

theorem exec_legalStatus {i : Instr} {s t : State} (h : exec i s = .next t) : LegalStatus t.status := by
  cases i with
  | calunpack => rw [exec_calunpack] at h; cases h; exact .inl rfl
  | rawparse => rw [exec_rawparse] at h; cases h; exact .inl rfl
  | compensate sel =>
    obtain ⟨-, -, rfl⟩ | ⟨-, rfl⟩ := exec_compensate_cases h
    · exact .inl rfl
    · exact .inr (.inl rfl)

theorem registerView_status (s : State) : (registerView s 25).toInt = s.status.toInt := by
  rw [registerView_of_written (s := s) (n := 25) rfl]
  exact toInt_extendView_s8 s.status

/-! ### Unwritten registers (10_state.md R25) -/

theorem registerWritten_eq_false {s : State} (hc : s.calValid = false) (hr : s.rawValid = false)
    (ht : s.tfineWritten = false) (ho : s.outWritten = false) {n : Nat} (hn : n ≤ 24) :
    registerWritten s n = false := by
  unfold registerWritten
  split_ifs <;> assumption

/-! ### The flags and `TFINE` after a command (10_state.md R16, R22) -/

theorem exec_calValid_iff {i : Instr} {s t : State} (h : exec i s = .next t) :
    t.calValid = true ↔ i = .calunpack ∨ s.calValid = true := by
  cases i with
  | calunpack => rw [exec_calunpack] at h; cases h; simp
  | rawparse => rw [exec_rawparse] at h; cases h; simp
  | compensate sel =>
    obtain ⟨-, -, rfl⟩ | ⟨-, rfl⟩ := exec_compensate_cases h <;> simp

theorem exec_rawValid_iff {i : Instr} {s t : State} (h : exec i s = .next t) :
    t.rawValid = true ↔ i = .rawparse ∨ s.rawValid = true := by
  cases i with
  | calunpack => rw [exec_calunpack] at h; cases h; simp
  | rawparse => rw [exec_rawparse] at h; cases h; simp
  | compensate sel =>
    obtain ⟨-, -, rfl⟩ | ⟨-, rfl⟩ := exec_compensate_cases h <;> simp

theorem exec_tfValid_iff {i : Instr} {s t : State} (h : exec i s = .next t) :
    t.tfValid = true ↔
      ((∃ sel, sel ≠ 0 ∧ i = .compensate sel) ∧ s.calValid = true ∧ s.rawValid = true) ∨
      (s.tfValid = true ∧ i ≠ .calunpack ∧ i ≠ .rawparse) := by
  cases i with
  | calunpack => rw [exec_calunpack] at h; cases h; simp
  | rawparse => rw [exec_rawparse] at h; cases h; simp
  | compensate sel =>
    obtain ⟨hc, hr, rfl⟩ | ⟨habsent, rfl⟩ := exec_compensate_cases h
    · simp only [completeOk_tfValid, compensateStages_tfValid]
      by_cases hsel : sel = 0 <;> simp [hsel, hc, hr]
    · rcases habsent with hc | hr <;> simp [*]

theorem exec_tfine_of_ne {i : Instr} {s t : State} (h : exec i s = .next t) (hne : t.tfine ≠ s.tfine) :
    ∃ sel, sel ≠ 0 ∧ i = .compensate sel ∧ s.calValid = true ∧ s.rawValid = true ∧ t.tfine = nextTfine s := by
  cases i with
  | calunpack => rw [exec_calunpack] at h; cases h; exact absurd rfl hne
  | rawparse => rw [exec_rawparse] at h; cases h; exact absurd rfl hne
  | compensate sel =>
    obtain ⟨hc, hr, rfl⟩ | ⟨-, rfl⟩ := exec_compensate_cases h
    · rw [completeOk_tfine, compensateStages_tfine] at hne ⊢
      by_cases hsel : sel = 0
      · exact absurd (if_pos hsel) hne
      · exact ⟨sel, hsel, rfl, hc, hr, if_neg hsel⟩
    · exact absurd rfl hne

end Sys2Proof.Machine

namespace Sys2Proof.Proofs

open Sys2Proof.Machine

/-- Settles O6: the step decodes the word and runs the command on the rest of the queue. -/
theorem stepRunsDecodedCommand : Obligations.StepRunsDecodedCommand := by
  unfold Obligations.StepRunsDecodedCommand
  intro s w i rest hp hd
  obtain ⟨t, ht⟩ := exec_next i (withPending s rest)
  exact ⟨t, ht, step_hcmd_command hp hd ht⟩

/-- Settles O7: a command ends with a legal status, and a reserved word with `IllegalCommand`; either way the status is
the answer. -/
theorem commandReturnsStatus : Obligations.CommandReturnsStatus := by
  unfold Obligations.CommandReturnsStatus
  intro s w rest hp
  cases hd : decode w with
  | command i =>
    obtain ⟨t, ht⟩ := exec_next i (withPending s rest)
    exact ⟨_, step_hcmd_command hp hd ht, exec_pending ht, rfl, registerView_status _,
      (exec_legalStatus ht : LegalStatus t.status)⟩
  | reserved why =>
    exact ⟨_, step_hcmd_reserved hp hd, rfl, rfl, registerView_status _, .inr (.inr rfl)⟩

/-- Settles O9: the model's reading of quiescence, log entry 2. -/
theorem idleStepChangesNothing : Obligations.IdleStepChangesNothing := by
  unfold Obligations.IdleStepChangesNothing
  exact fun s h => step_idle h

/-- Settles O13: a read records its answer, counts itself, and leaves the block. -/
theorem hostReadsChangeNothing : Obligations.HostReadsChangeNothing := by
  unfold Obligations.HostReadsChangeNothing
  rintro s op rest hp (⟨a, rfl⟩ | ⟨n, rfl⟩)
  · exact ⟨_, step_op hp, rfl, ⟨rfl, rfl, rfl, rfl, rfl, rfl, rfl, rfl, fun _ => rfl⟩⟩
  · exact ⟨_, step_op hp, rfl, ⟨rfl, rfl, rfl, rfl, rfl, rfl, rfl, rfl, fun _ => rfl⟩⟩

/-- Settles O14: an operation that is no command and no `RESET` keeps the registers and `STATUS`. -/
theorem onlyCommandsWriteRegisters : Obligations.OnlyCommandsWriteRegisters := by
  unfold Obligations.OnlyCommandsWriteRegisters
  intro s t op rest hp hcmd hreset hstep
  rw [step_op hp] at hstep
  have hstatus := performHostOp_status hstep hcmd hreset
  obtain ⟨i, -, hop, -⟩ | ⟨hop, -⟩ | ⟨-, -, hsame⟩ := performHostOp_registers hstep
  · exact absurd hop (hcmd _)
  · exact absurd hop hreset
  · exact ⟨hsame.coef, hsame.raw, hsame.tfine, hsame.out, hstatus, hsame.calValid, hsame.rawValid, hsame.tfValid⟩

/-- Settles O15: the table's rows for a command, for `RESET`, and for an operation that is neither. -/
theorem flagsFollowTable : Obligations.FlagsFollowTable := by
  unfold Obligations.FlagsFollowTable
  intro s t op rest hp hstep
  rw [step_op hp] at hstep
  rw [← encode_calunpack, ← encode_rawparse]
  obtain ⟨i, u, rfl, hu, rfl⟩ | ⟨rfl, rfl⟩ | ⟨hcmd, hreset, hsame⟩ := performHostOp_registers hstep
  · have hop : ∀ j, HostOp.hcmd (encode i) = .hcmd (encode j) ↔ i = j :=
      fun j => ⟨fun h => encode_injective (HostOp.hcmd.inj h), fun h => h ▸ rfl⟩
    simp [hop, exec_calValid_iff hu, exec_rawValid_iff hu, exec_tfValid_iff hu]
  · simp
  · simp [hcmd, hreset, hsame.calValid, hsame.rawValid, hsame.tfValid]

/-- Settles O16: of the commands only a `COMPENSATE` that ran the temperature stage writes `TFINE`. -/
theorem tfineChangesOnlyInTemperatureStage : Obligations.TfineChangesOnlyInTemperatureStage := by
  unfold Obligations.TfineChangesOnlyInTemperatureStage
  intro s t op rest hp hstep hne
  rw [step_op hp] at hstep
  obtain ⟨i, u, rfl, hu, rfl⟩ | ⟨hop, -⟩ | ⟨-, -, hsame⟩ := performHostOp_registers hstep
  · obtain ⟨sel, hsel, rfl, hc, hr, htfine⟩ := exec_tfine_of_ne hu hne
    exact .inr ⟨sel, hsel, rfl, hc, hr, htfine⟩
  · exact .inl hop
  · exact absurd hsame.tfine hne

/-- Settles O18: the fields of `State.reset`, whose four marks are clear. -/
theorem resetLeavesSpecifiedValues : Obligations.ResetLeavesSpecifiedValues := by
  unfold Obligations.ResetLeavesSpecifiedValues
  exact ⟨rfl, rfl, rfl, rfl, rfl, fun _ => rfl, fun n hn => registerWritten_eq_false rfl rfl rfl rfl hn⟩

/-- Settles O19: the step performs `applyReset`, which clears the flags, the buffers and the marks. -/
theorem resetEventResets : Obligations.ResetEventResets := by
  unfold Obligations.ResetEventResets
  intro s rest hp
  exact ⟨_, step_op hp, rfl, rfl, rfl, rfl, rfl, fun _ => rfl,
    fun n hn => registerWritten_eq_false rfl rfl rfl rfl hn⟩

end Sys2Proof.Proofs
end

section
/-! PROOFS. Runs of the machine: a run is composed of its steps, goes on for any number of them, and keeps what every
step keeps; what a list of host operations leaves (30_encoding.md R68, 47_host_access.md R202). -/

namespace Sys2Proof.Machine

/-! ### The steps of a run -/

theorem run_succ {s t : State} (h : step s = .next t) (k : Nat) :
    Host.Core.run core (k + 1) s = Host.Core.run core k t := by
  have hcore : core.step s = .next t := h
  simp only [Host.Core.run, hcore]

theorem run_one {s t : State} (h : step s = .next t) : Host.Core.run core 1 s = .next t :=
  run_succ h 0

theorem run_next (k : Nat) (s : State) : ∃ t, Host.Core.run core k s = .next t := by
  induction k generalizing s with
  | zero => exact ⟨s, rfl⟩
  | succ k ih =>
    obtain ⟨u, hu⟩ := step_next s
    rw [run_succ hu]
    exact ih u

/-- What every step keeps holds after every run. -/
theorem run_keeps {P : State → Prop} (hstep : ∀ s t, P s → step s = .next t → P t) (k : Nat) {s t : State}
    (hs : P s) (h : Host.Core.run core k s = .next t) : P t := by
  induction k generalizing s with
  | zero => cases h; exact hs
  | succ k ih =>
    obtain ⟨u, hu⟩ := step_next s
    rw [run_succ hu] at h
    exact ih (hstep s u hs hu) h

/-- Two runs, the second from where the first ends. -/
theorem run_add {j : Nat} {s t : State} (h : Host.Core.run core j s = .next t) (k : Nat) :
    Host.Core.run core (j + k) s = Host.Core.run core k t := by
  induction j generalizing s with
  | zero => cases h; rw [Nat.zero_add]
  | succ j ih =>
    obtain ⟨u, hu⟩ := step_next s
    rw [run_succ hu] at h
    rw [Nat.add_right_comm, run_succ hu, ih h]

/-! ### The step that performs a host operation -/

theorem step_hwb_mapped {s : State} {addr : Byte} (byte : Byte) {rest : List HostOp}
    (hp : s.pending = .hwb addr byte :: rest) (hm : mapped addr.toNat = true) :
    ∃ t, step s = .next t ∧ t.pending = rest ∧ SameRegisters s t ∧
      t.mem = Memory.write s.mem addr.toNat byte := by
  refine ⟨_, step_hwb hp, ?_⟩
  rw [hostWriteByte_of_mapped hm]
  exact ⟨rfl, ⟨rfl, rfl, rfl, rfl, rfl, rfl, rfl, rfl, rfl⟩, rfl⟩

theorem hostByte_of_holds {s : State} {addr byte : Byte} (hm : mapped addr.toNat = true)
    (h : HoldsByte s addr.toNat byte) : hostByte s addr = byte := by
  rw [hostByte, if_pos hm, h, Option.getD_some]

theorem step_hrb_of_holds {s : State} {addr byte : Byte} {rest : List HostOp} (hp : s.pending = .hrb addr :: rest)
    (hm : mapped addr.toNat = true) (h : HoldsByte s addr.toNat byte) :
    ∃ t, step s = .next t ∧ t.answer = .byte byte ∧ t.pending = rest :=
  ⟨_, step_op hp, congrArg HostAnswer.byte (hostByte_of_holds (s := withPending s rest) hm h), rfl⟩

/-! ### Runs over a list of host operations -/

/-- A byte outlives every list of host operations without `RESET` and without a write to its address. -/
theorem run_keeps_byte {addr : Byte} (ops : List HostOp) {s : State} {rest : List HostOp}
    (hops : ∀ op ∈ ops, op ≠ .reset ∧ ∀ b, op ≠ .hwb addr b) (hp : s.pending = ops ++ rest) :
    ∃ t, Host.Core.run core ops.length s = .next t ∧ t.pending = rest ∧
      Memory.read t.mem addr.toNat = Memory.read s.mem addr.toNat := by
  induction ops generalizing s with
  | nil => exact ⟨s, rfl, hp, rfl⟩
  | cons op ops ih =>
    obtain ⟨hreset, hother⟩ := hops op List.mem_cons_self
    obtain ⟨u, hu⟩ := performHostOp_next op (withPending s (ops ++ rest))
    have hstep : step s = .next u := (step_op hp).trans hu
    obtain ⟨t, hrun, hrest, hread⟩ :=
      ih (fun op' h => hops op' (List.mem_cons_of_mem _ h)) (performHostOp_pending hu)
    exact ⟨t, (run_succ hstep _).trans hrun, hrest, hread.trans (performHostOp_keeps_byte hu hreset addr hother)⟩

/-- `LDBUF` whose bytes all go to mapped addresses: each stands at its address, and nothing below the base and no
register is changed. -/
theorem run_ldbuf (bs : List Byte) {base : Byte} {s : State} {rest : List HostOp}
    (hp : s.pending = ldbuf base bs ++ rest) (hfit : base.toNat + bs.length < 256)
    (hm : ∀ i < bs.length, mapped (base.toNat + i) = true) :
    ∃ t, Host.Core.run core bs.length s = .next t ∧ t.pending = rest ∧ SameRegisters s t ∧
      (∀ i < bs.length, HoldsByte t (base.toNat + i) (bs.getD i 0)) ∧
      ∀ a < base.toNat, Memory.read t.mem a = Memory.read s.mem a := by
  induction bs generalizing base s with
  | nil => exact ⟨s, rfl, hp, ⟨rfl, rfl, rfl, rfl, rfl, rfl, rfl, rfl, rfl⟩, nofun, fun _ _ => rfl⟩
  | cons b bs ih =>
    rw [List.length_cons] at hfit hm ⊢
    obtain ⟨u, hstep, hrest, hsame, hmem⟩ := step_hwb_mapped b hp (hm 0 (Nat.succ_pos _))
    have hbase : (base + 1).toNat = base.toNat + 1 := by
      rw [BitVec.toNat_add]
      exact Nat.mod_eq_of_lt (show base.toNat + 1 < 256 by omega)
    obtain ⟨t, hrun, hpend, hsame', hbytes, hbelow⟩ := ih hrest (by omega) fun i hi => by
      rw [hbase, Nat.add_right_comm]
      exact hm (i + 1) (by omega)
    rw [hbase] at hbytes hbelow
    refine ⟨t, (run_succ hstep _).trans hrun, hpend, hsame.trans hsame', fun i hi => ?_, fun a ha => ?_⟩
    · cases i with
      | zero =>
        calc
          Memory.read t.mem base.toNat = Memory.read u.mem base.toNat := hbelow _ (Nat.lt_succ_self _)
          _ = some b := by rw [hmem, memory_read_write_same]
      | succ i =>
        rw [Nat.add_succ, ← Nat.succ_add]
        exact hbytes i (by omega)
    · rw [hbelow a (by omega), hmem, memory_read_write_other s.mem b (by omega)]

end Sys2Proof.Machine

namespace Sys2Proof.Proofs

open Sys2Proof.Machine

/-- Settles O8: every step answers a next state, by induction on the number of steps. -/
theorem everyRunGoesOn : Obligations.EveryRunGoesOn := by
  unfold Obligations.EveryRunGoesOn
  exact run_next

/-- Settles O11: one step writes the byte, the operations between keep it, and the last step reads it. -/
theorem hostReadReturnsByteWritten : Obligations.HostReadReturnsByteWritten := by
  unfold Obligations.HostReadReturnsByteWritten
  intro s addr byte others rest hm hothers hp
  obtain ⟨s₁, hwrite, hp₁, -, hmem⟩ := step_hwb_mapped byte hp hm
  obtain ⟨s₂, hrun, hp₂, hread⟩ := run_keeps_byte others hothers hp₁
  have hholds : Memory.read s₂.mem addr.toNat = some byte := by
    rw [hread, hmem, memory_read_write_same]
  obtain ⟨t, hlast, hanswer, hrest⟩ := step_hrb_of_holds hp₂ hm hholds
  refine ⟨t, ?_, hanswer, hrest⟩
  rw [run_succ hwrite, run_add hrun, run_one hlast]

/-- Settles O34: `LDBUF` brings the eight bytes to `BURST`, and `RAWPARSE` parses a loaded burst. -/
theorem loadRawReachesRegisters : Obligations.LoadRawReachesRegisters := by
  unfold Obligations.LoadRawReachesRegisters
  intro s b0 b1 b2 b3 b4 b5 b6 b7 rest hp
  rw [ldraw, List.append_assoc] at hp
  obtain ⟨u, hrun, hpu, hsame, hbytes, -⟩ := run_ldbuf [b0, b1, b2, b3, b4, b5, b6, b7] hp
    (show 0xF7 + 8 < 256 by decide) (show ∀ i < 8, mapped (0xF7 + i) = true by decide)
  have hstep := step_hcmd_command hpu (decode_eq_command_iff.2 rfl) (exec_rawparse (withPending u rest))
  have hraw := parseRaw_of_holds (s := withPending u rest) hbytes
  refine ⟨_, (run_add hrun 1).trans (run_one hstep), rfl, rfl, rfl, hsame.coef, hsame.out, hsame.tfine, ?_⟩
  simp only [answerStatus_raw, completeOk_raw, flagSampled_raw, withRaw_raw, hraw]
  exact ⟨toNat_burst20 _ _ _, toNat_burst20 _ _ _, toNat_burst16 _ _⟩

end Sys2Proof.Proofs
end

section
/-! PROOFS. The invariant: the ranges of what the commands compute (10_state.md R12 to R15), and that every step keeps
`Inv`, so that it holds along every run. -/

namespace Sys2Proof.Machine

/-! ### The ranges of the unpacked and parsed registers -/

/-- A sign-extended byte and a nibble make a 12-bit signed value (41_calunpack.md R110). -/
theorem packed12_range (high : Byte) {nibble : Half} (h : nibble.toNat < 16) :
    -2048 ≤ (packed12 high nibble).toInt ∧ (packed12 high nibble).toInt ≤ 2047 := by
  have hlo := high.le_toInt
  have hhi := high.toInt_lt
  rw [toInt_packed12 high nibble h]
  omega

theorem unpackH4_range (layout : HpackLayout) (s : State) :
    -2048 ≤ (unpackH4 layout s).toInt ∧ (unpackH4 layout s).toInt ≤ 2047 :=
  packed12_range _ (lowNibble_lt _)

theorem unpackH5_range (layout : HpackLayout) (s : State) :
    -2048 ≤ (unpackH5 layout s).toInt ∧ (unpackH5 layout s).toInt ≤ 2047 :=
  packed12_range _ (highNibble_lt _)

theorem toNat_burst20_lt (b0 b1 b2 : Byte) : (burst20 b0 b1 b2).toNat < 2 ^ 20 :=
  Nat.lt_succ_of_le (toNat_burst20_le b0 b1 b2)

theorem toNat_burst16_lt (b0 b1 : Byte) : (burst16 b0 b1).toNat < 2 ^ 16 := by
  have h0 := b0.isLt
  have h1 := b1.isLt
  rw [toNat_burst16]
  omega

/-! ### The ranges of the outputs (10_state.md R15) -/

theorem compensateStages_out_p_range (sel : Sel) (s : State) :
    (compensateStages sel s).out.p.toNat = 0 ∨
      (30000 ≤ (compensateStages sel s).out.p.toNat ∧ (compensateStages sel s).out.p.toNat ≤ 110000) := by
  rw [compensateStages_out_p]
  split
  · exact .inr (stagePressure_range _ _ _)
  · exact .inl rfl

/-- Whatever `TOUT_UNSEL` is, `OUT_T` is 0 or a clamped reading, and 0 is in the clamp's range. -/
theorem compensateStages_out_t_range (sel : Sel) (s : State) :
    -4000 ≤ (compensateStages sel s).out.t.toInt ∧ (compensateStages sel s).out.t.toInt ≤ 8500 := by
  have hreading := temperatureReading_range (nextTfine s)
  rw [compensateStages_out_t]
  split_ifs
  · decide
  · exact hreading
  · obtain h | h := unselectedTemperature_cases (temperatureReading (nextTfine s))
    · rw [h]; decide
    · rwa [h]

theorem compensateStages_out_h_range (sel : Sel) (s : State) :
    (compensateStages sel s).out.h.toNat ≤ 102400 := by
  rw [compensateStages_out_h]
  split
  · exact stageHumidity_range _ _ _
  · exact Nat.zero_le _

/-! ### What keeps the invariant -/

/-- The range clauses speak of written registers only, so none is left where no register counts as written. -/
theorem inv_of_unwritten {s : State} (hmem : Memory.wf s.mem) (hstatus : LegalStatus s.status)
    (hc : s.calValid = false) (hr : s.rawValid = false) (htf : s.tfValid = false)
    (ht : s.tfineWritten = false) (ho : s.outWritten = false) : Inv s where
  memory := hmem
  rawP := by simp [hr]
  rawT := by simp [hr]
  rawH := by simp [hr]
  h4 := by simp [hc]
  h5 := by simp [hc]
  status := hstatus
  outP := by simp [ho]
  outT := by simp [ho]
  outH := by simp [ho]
  outWritten := by simp [ho]
  tfineWritten := by simp [ht]
  fresh := by simp [htf]

/-- Outside the buffers and `STATUS` the invariant is about registers, flags and marks. -/
theorem inv_of_sameRegisters {s t : State} (hi : Inv s) (h : SameRegisters s t) (hmem : Memory.wf t.mem)
    (hstatus : LegalStatus t.status) : Inv t where
  memory := hmem
  rawP := by simpa only [h.rawValid, h.raw] using hi.rawP
  rawT := by simpa only [h.rawValid, h.raw] using hi.rawT
  rawH := by simpa only [h.rawValid, h.raw] using hi.rawH
  h4 := by simpa only [h.calValid, h.coef] using hi.h4
  h5 := by simpa only [h.calValid, h.coef] using hi.h5
  status := hstatus
  outP := by simpa only [h.outWritten, h.out] using hi.outP
  outT := by simpa only [h.outWritten, h.out] using hi.outT
  outH := by simpa only [h.outWritten, h.out] using hi.outH
  outWritten := by simpa only [h.outWritten, h.calValid, h.rawValid] using hi.outWritten
  tfineWritten := by simpa only [h.tfineWritten, h.outWritten] using hi.tfineWritten
  fresh := by simpa only [h.tfValid, h.tfineWritten, h.tfine, h.raw, h.coef] using hi.fresh

theorem inv_applyReset (s : State) : Inv (applyReset s) :=
  inv_of_unwritten memory_reset_wf (.inl rfl) rfl rfl rfl rfl rfl

/-- `CALUNPACK` clears `tf_valid`, so the old `TFINE` need not match the new coefficients. -/
theorem exec_calunpack_keeps_inv {s : State} (hi : Inv s) :
    Inv (completeOk (flagCalibrated (withCoefficients s (unpackCoefficients s)))) where
  memory := hi.memory
  rawP := hi.rawP
  rawT := hi.rawT
  rawH := hi.rawH
  h4 _ := unpackH4_range hpackLayout s
  h5 _ := unpackH5_range hpackLayout s
  status := .inl rfl
  outP := hi.outP
  outT := hi.outT
  outH := hi.outH
  outWritten ho := ⟨rfl, (hi.outWritten ho).2⟩
  tfineWritten := hi.tfineWritten
  fresh := nofun

/-- `RAWPARSE` clears `tf_valid`, so the old `TFINE` need not match the new raw temperature. -/
theorem exec_rawparse_keeps_inv {s : State} (hi : Inv s) :
    Inv (completeOk (flagSampled (withRaw s (parseRaw s)))) where
  memory := hi.memory
  rawP _ := toNat_burst20_lt _ _ _
  rawT _ := toNat_burst20_lt _ _ _
  rawH _ := toNat_burst16_lt _ _
  h4 := hi.h4
  h5 := hi.h5
  status := .inl rfl
  outP := hi.outP
  outT := hi.outT
  outH := hi.outH
  outWritten ho := ⟨(hi.outWritten ho).1, rfl⟩
  tfineWritten := hi.tfineWritten
  fresh := nofun

/-- With a selector other than 0 `TFINE` is the one of the current sample; with `NONE` it and `tf_valid` are kept. -/
theorem compensateStages_fresh {s : State} (hi : Inv s) (sel : Sel) (h : (compensateStages sel s).tfValid = true) :
    (compensateStages sel s).tfineWritten = true ∧ (compensateStages sel s).tfine = nextTfine s := by
  rw [compensateStages_tfValid] at h
  rw [compensateStages_tfineWritten, compensateStages_tfine]
  by_cases hsel : sel = 0
  · rw [if_pos hsel] at h
    rw [if_pos hsel, if_pos hsel]
    exact hi.fresh h
  · rw [if_neg hsel, if_neg hsel]
    exact ⟨rfl, rfl⟩

theorem compensateStages_keeps_inv {s : State} (hi : Inv s) (hc : s.calValid = true) (hr : s.rawValid = true)
    (sel : Sel) : Inv (completeOk (compensateStages sel s)) where
  memory := by simpa using hi.memory
  rawP := by simpa using hi.rawP
  rawT := by simpa using hi.rawT
  rawH := by simpa using hi.rawH
  h4 := by simpa using hi.h4
  h5 := by simpa using hi.h5
  status := .inl rfl
  outP _ := compensateStages_out_p_range sel s
  outT _ := compensateStages_out_t_range sel s
  outH _ := compensateStages_out_h_range sel s
  outWritten _ := by simp [hc, hr]
  tfineWritten _ := by simp
  fresh h := by simpa [nextTfine] using compensateStages_fresh hi sel h

theorem exec_keeps_inv {i : Instr} {s t : State} (hi : Inv s) (h : exec i s = .next t) : Inv t := by
  cases i with
  | calunpack => rw [exec_calunpack] at h; cases h; exact exec_calunpack_keeps_inv hi
  | rawparse => rw [exec_rawparse] at h; cases h; exact exec_rawparse_keeps_inv hi
  | compensate sel =>
    obtain ⟨hc, hr, rfl⟩ | ⟨-, rfl⟩ := exec_compensate_cases h
    · exact compensateStages_keeps_inv hi hc hr sel
    · exact inv_of_sameRegisters hi (sameRegisters_raiseFault _ s) hi.memory (.inr (.inl rfl))

theorem hostWriteByte_keeps_wf {s : State} (hm : Memory.wf s.mem) (a b : Byte) :
    Memory.wf (hostWriteByte a b s).mem := by
  by_cases ha : mapped a.toNat = true
  · rw [hostWriteByte_of_mapped ha]
    exact memory_write_wf b hm ha
  · rw [hostWriteByte_of_not_mapped ha]
    exact hm

theorem performHostOp_keeps_inv {op : HostOp} {s t : State} (hi : Inv s) (h : performHostOp op s = .next t) :
    Inv t := by
  rcases performHostOp_cases h with ⟨a, b, rfl, rfl⟩ | ⟨a, rfl, rfl⟩ | ⟨n, rfl, rfl⟩ | ⟨w, i, u, rfl, _, hu, rfl⟩ |
    ⟨w, why, rfl, _, rfl⟩ | ⟨rfl, rfl⟩
  · refine inv_of_sameRegisters hi (sameRegisters_hostWriteByte a b s) (hostWriteByte_keeps_wf hi.memory a b) ?_
    rw [hostWriteByte_status]
    exact hi.status
  · exact inv_of_sameRegisters hi (sameRegisters_hostReadByte a s) hi.memory hi.status
  · exact inv_of_sameRegisters hi (sameRegisters_hostReadRegister n s) hi.memory hi.status
  · have hu' : Inv u := exec_keeps_inv hi hu
    exact inv_of_sameRegisters hu' (sameRegisters_answerStatus u) hu'.memory hu'.status
  · exact inv_of_sameRegisters hi ((sameRegisters_raiseFault _ s).trans (sameRegisters_answerStatus _)) hi.memory
      (.inr (.inr rfl))
  · exact inv_applyReset s

theorem step_keeps_inv {s t : State} (hi : Inv s) (h : step s = .next t) : Inv t := by
  obtain ⟨-, rfl⟩ | ⟨op, rest, -, hop⟩ := step_cases h
  · exact hi
  · exact performHostOp_keeps_inv (inv_of_sameRegisters hi (sameRegisters_withPending s rest) hi.memory hi.status) hop

/-- A set `tf_valid` in a state that meets the invariant (10_state.md R18). -/
theorem tfine_of_inv_of_tfValid {s : State} (hi : Inv s) (h : s.tfValid = true) :
    s.calValid = true ∧ s.rawValid = true ∧ s.tfine = fineTemperature s.raw.t s.coef.t1 s.coef.t2 s.coef.t3 := by
  obtain ⟨hwritten, htfine⟩ := hi.fresh h
  obtain ⟨hc, hr⟩ := hi.outWritten (hi.tfineWritten hwritten)
  exact ⟨hc, hr, htfine⟩

end Sys2Proof.Machine

namespace Sys2Proof.Proofs

open Sys2Proof.Machine

/-- Settles O53: a step is idle or performs one host operation; a command keeps `Inv` by the ranges of what it
computes, `RESET` leaves no register written, and every other operation keeps the registers. -/
theorem stepKeepsInvariant : Obligations.StepKeepsInvariant := by
  unfold Obligations.StepKeepsInvariant
  exact fun s t hi h => step_keeps_inv hi h

/-- Settles O54: `Inv` holds after the run, and its clause on `tf_valid` leads through the marks to both valid flags. -/
theorem freshFlagIsTruthfulOnRuns : Obligations.FreshFlagIsTruthfulOnRuns := by
  unfold Obligations.FreshFlagIsTruthfulOnRuns
  intro k s t hi hrun htf
  have ht : Inv t := run_keeps (fun _ _ => step_keeps_inv) k hi hrun
  exact tfine_of_inv_of_tfValid ht htf

/-- Settles O52: in the reset state no register counts as written. -/
theorem resetMeetsInvariant : Obligations.ResetMeetsInvariant := by
  unfold Obligations.ResetMeetsInvariant
  exact inv_of_unwritten memory_reset_wf (.inl rfl) rfl rfl rfl rfl rfl

end Sys2Proof.Proofs
end

section
/-! PROOFS. The unpacking commands: the range and the two layouts of the packed values (41_calunpack.md), which bits of
the burst the raw registers hold (42_rawparse.md), and what each command leaves unchanged. -/

namespace Sys2Proof.Machine

/-! ### The bytes a packed value is made of, under each layout (41_calunpack.md R113) -/

theorem unpackH4_sensor_of_holds {s : State} {b3 b4 : Byte} (h3 : HoldsByte s 0xE4 b3) (h4 : HoldsByte s 0xE5 b4) :
    unpackH4 .sensor s = packed12 b3 (lowNibble b4) :=
  congrArg₂ (fun high low => packed12 high (lowNibble low)) (commandByte_of_holds h3) (commandByte_of_holds h4)

theorem unpackH5_sensor_of_holds {s : State} {b4 b5 : Byte} (h4 : HoldsByte s 0xE5 b4) (h5 : HoldsByte s 0xE6 b5) :
    unpackH5 .sensor s = packed12 b5 (highNibble b4) :=
  congrArg₂ (fun high low => packed12 high (highNibble low)) (commandByte_of_holds h5) (commandByte_of_holds h4)

/-- The high byte carries the sign of both readings. -/
theorem sextNat_8_mul_16_add (b n : Nat) (hb : b < 256) (hn : n < 16) :
    sextNat 8 b * 16 + n = sextNat 12 (b * 16 + n) := by
  simp only [sextNat]
  split <;> split <;> omega

/-! ### The bits the burst's fields hold (42_rawparse.md R125) -/

theorem burst20_eq_iff (b0 b1 b2 c0 c1 c2 : Byte) :
    burst20 b0 b1 b2 = burst20 c0 c1 c2 ↔ b0 = c0 ∧ b1 = c1 ∧ b2.toNat / 16 = c2.toNat / 16 := by
  have hb1 := b1.isLt
  have hb2 := b2.isLt
  have hc1 := c1.isLt
  have hc2 := c2.isLt
  simp only [← BitVec.toNat_inj, toNat_burst20]
  omega

theorem burst16_eq_iff (b0 b1 c0 c1 : Byte) : burst16 b0 b1 = burst16 c0 c1 ↔ b0 = c0 ∧ b1 = c1 := by
  have hb1 := b1.isLt
  have hc1 := c1.isLt
  simp only [← BitVec.toNat_inj, toNat_burst16]
  omega

/-- Of bytes read with the same epoch, also those nothing has written agree (log entry 6). -/
theorem commandByte_withMem_congr {s : State} {m : Memory} {a : Nat} (h : Memory.read m a = Memory.read s.mem a) :
    commandByte { s with mem := m } a = commandByte s a := by
  rw [commandByte, commandByte, h]

end Sys2Proof.Machine

namespace Sys2Proof.Proofs

open Sys2Proof.Machine

/-- Settles O28: `H4` and `H5` are a signed byte times 16 plus a nibble. -/
theorem packedCoefficientsStayInRange : Obligations.PackedCoefficientsStayInRange := by
  unfold Obligations.PackedCoefficientsStayInRange
  intro s t h
  rw [exec_calunpack] at h
  cases h
  obtain ⟨hlo, hhi⟩ := unpackH4_range hpackLayout s
  exact ⟨hlo, hhi, unpackH5_range hpackLayout s⟩

/-- Settles O33: the two 20-bit fields and the 16-bit field tile the burst but for the two nibbles. -/
theorem rawparseIgnoresExactlyTwoNibbles : Obligations.RawparseIgnoresExactlyTwoNibbles := by
  unfold Obligations.RawparseIgnoresExactlyTwoNibbles
  intro s s' t t' b b' hb hb' ht ht'
  rw [exec_rawparse] at ht ht'
  cases ht
  cases ht'
  simp only [completeOk_raw, flagSampled_raw, withRaw_raw, parseRaw_of_holds hb, parseRaw_of_holds hb',
    RawSample.mk.injEq, burst20_eq_iff, burst16_eq_iff, and_assoc]

/-- Settles O24: the document's sum, with the sign of the byte as the sign of the twelve bits. -/
theorem packedDecodeIsTwelveBitExtension : Obligations.PackedDecodeIsTwelveBitExtension := by
  unfold Obligations.PackedDecodeIsTwelveBitExtension
  intro high n hn
  have hnibble : (BitVec.ofNat 16 n).toNat = n := by
    rw [BitVec.toNat_ofNat]
    omega
  rw [toInt_packed12_eq_sum high (by omega), hnibble, sextNat_8_mul_16_add _ n high.isLt hn]

/-- Settles O26: the command writes the coefficients, two flags and `STATUS`. -/
theorem calunpackFrame : Obligations.CalunpackFrame := by
  unfold Obligations.CalunpackFrame
  intro s t h
  rw [exec_calunpack] at h
  cases h
  exact ⟨rfl, rfl, rfl, rfl, fun _ => rfl, rfl⟩

/-- Settles O29: under `SENSOR` the document's or, of the bytes the layout names. -/
theorem sensorLayoutMovesSharedNibbles : Obligations.SensorLayoutMovesSharedNibbles := by
  unfold Obligations.SensorLayoutMovesSharedNibbles
  intro s b3 b4 b5 h3 h4 h5
  rw [unpackH4_sensor_of_holds h3 h4, unpackH5_sensor_of_holds h4 h5, ← toNat_lowNibble_eq_and,
    ← toNat_highNibble_eq_shiftRight]
  exact ⟨toInt_packed12_eq_or _ _, toInt_packed12_eq_or _ _⟩

/-- Settles O32: the command writes the raw registers, two flags and `STATUS`. -/
theorem rawparseFrame : Obligations.RawparseFrame := by
  unfold Obligations.RawparseFrame
  intro s t h
  rw [exec_rawparse] at h
  cases h
  exact ⟨rfl, rfl, rfl, rfl, fun _ => rfl, rfl⟩

/-- Settles O56: the coefficients do not depend on the byte at 0xA0, and the free values are those of one epoch. -/
theorem calunpackIgnoresUnusedByteUnwritten : Obligations.CalunpackIgnoresUnusedByteUnwritten := by
  unfold Obligations.CalunpackIgnoresUnusedByteUnwritten
  intro s m hm
  have hcoef : unpackCoefficients { s with mem := m } = unpackCoefficients s :=
    unpackCoefficients_congr fun a ha => commandByte_withMem_congr (hm a (by omega))
  refine ⟨_, exec_calunpack s, ?_⟩
  rw [exec_calunpack, hcoef]
  rfl

end Sys2Proof.Proofs
end

section
/-! PROOFS. `COMPENSATE` (43_compensate.md): the state the stages leave as one update of the old one, from which the
selector, the old `TFINE` and the outputs drop out, and the outputs' ranges and marks. -/

namespace Sys2Proof.Machine

/-! ### The stages as one update -/

/-- The outputs of a `COMPENSATE` whose temperature stage runs (43_compensate.md R131, R135). -/
def stageOutputs (sel : Sel) (s : State) : CompensatedSample where
  p := if selectsPressure sel then stagePressure s.raw.p (nextTfine s) s.coef else 0
  t := if selectsTemperature sel then temperatureReading (nextTfine s)
    else unselectedTemperature (temperatureReading (nextTfine s))
  h := if selectsHumidity sel then stageHumidity s.raw.h (nextTfine s) s.coef else 0

/-- What a `COMPENSATE` whose temperature stage runs writes, for any values of `TFINE` and the outputs. -/
def writeStages (s : State) (v : Word) (o : CompensatedSample) : State :=
  withOutputs (flagTfineFresh (withTfine s v)) o

/-- The three old values are overwritten. -/
theorem writeStages_overwrites (s : State) (v v' : Word) (o o' : CompensatedSample) (f : Bool) :
    writeStages { s with tfine := v', out := o', tfValid := f } v o = writeStages s v o := rfl

theorem completeOk_writeStages_idem (s : State) (v : Word) (o : CompensatedSample) :
    completeOk (writeStages (completeOk (writeStages s v o)) v o) = completeOk (writeStages s v o) := rfl

theorem nextTfine_congr {s t : State} (hraw : t.raw = s.raw) (hcoef : t.coef = s.coef) : nextTfine t = nextTfine s := by
  rw [nextTfine, nextTfine, hraw, hcoef]

/-- The stages read raw registers and coefficients only. -/
theorem stageOutputs_congr (sel : Sel) {s t : State} (hraw : t.raw = s.raw) (hcoef : t.coef = s.coef) :
    stageOutputs sel t = stageOutputs sel s := by
  rw [stageOutputs, stageOutputs, nextTfine_congr hraw hcoef, hraw, hcoef]

theorem pressurePart_withOutputs (sel : Sel) (s : State) (o : CompensatedSample) :
    pressurePart sel (withOutputs s o) = withOutputs s
      { o with p := if selectsPressure sel then stagePressure s.raw.p s.tfine s.coef else o.p } := by
  unfold pressurePart
  split <;> rfl

theorem humidityPart_withOutputs (sel : Sel) (s : State) (o : CompensatedSample) :
    humidityPart sel (withOutputs s o) = withOutputs s
      { o with h := if selectsHumidity sel then stageHumidity s.raw.h s.tfine s.coef else o.h } := by
  unfold humidityPart
  split <;> rfl

/-- Writing the outputs overwrites the zeros of ZERO. -/
theorem withOutputs_zeroOutputs (s : State) (v : Word) (o : CompensatedSample) :
    withOutputs (flagTfineFresh (withTfine (zeroOutputs s) v)) o = writeStages s v o := rfl

/-- Neither the old `TFINE` nor the old outputs stand on the right (70_reset_and_hazards.md R235). -/
theorem compensateStages_ne {sel : Sel} (s : State) (h : sel ≠ 0) :
    compensateStages sel s = writeStages s (nextTfine s) (stageOutputs sel s) := by
  rw [compensateStages, temperaturePart_ne _ h, nextTfine_zeroOutputs, withOutputs_zeroOutputs, writeStages,
    pressurePart_withOutputs, humidityPart_withOutputs, writeStages, stageOutputs]
  simp

/-- What the stages write is the same for two states with the same raw registers and coefficients. -/
theorem compensateStages_ne_congr {sel : Sel} {s t : State} (h : sel ≠ 0) (hraw : t.raw = s.raw)
    (hcoef : t.coef = s.coef) :
    compensateStages sel t = writeStages t (nextTfine s) (stageOutputs sel s) := by
  rw [compensateStages_ne t h, nextTfine_congr hraw hcoef, stageOutputs_congr sel hraw hcoef]

/-- A selected output, as a function of the raw registers and the coefficients alone (43_compensate.md R140). -/
theorem compensateStages_out_p_of_selected {sel : Sel} (s : State) (h : sel.getLsbD 0 = true) :
    (compensateStages sel s).out.p = stagePressure s.raw.p (nextTfine s) s.coef := by
  rw [compensateStages_out_p, selectsPressure_eq, if_pos h]

theorem compensateStages_out_t_of_selected {sel : Sel} (s : State) (h : sel.getLsbD 1 = true) :
    (compensateStages sel s).out.t = temperatureReading (nextTfine s) := by
  rw [compensateStages_out_t, if_neg (sel_ne_zero_of_temperature h), selectsTemperature_eq, if_pos h]

theorem compensateStages_out_h_of_selected {sel : Sel} (s : State) (h : sel.getLsbD 2 = true) :
    (compensateStages sel s).out.h = stageHumidity s.raw.h (nextTfine s) s.coef := by
  rw [compensateStages_out_h, selectsHumidity_eq, if_pos h]

/-! ### A command issued twice (47_host_access.md R204) -/

/-- The buffers and the free values are as before, so the second `CALUNPACK` reads the same bytes. -/
theorem unpackCoefficients_after_calunpack (s : State) (c : Coefficients) :
    unpackCoefficients (completeOk (flagCalibrated (withCoefficients s c))) = unpackCoefficients s :=
  unpackCoefficients_congr fun _ _ => rfl

theorem parseRaw_after_rawparse (s : State) (r : RawSample) :
    parseRaw (completeOk (flagSampled (withRaw s r))) = parseRaw s := rfl

/-- The stages write neither the raw registers nor the coefficients, and so compute the same again. -/
theorem completeOk_compensateStages_idem (sel : Sel) (s : State) :
    completeOk (compensateStages sel (completeOk (compensateStages sel s))) = completeOk (compensateStages sel s) := by
  by_cases h : sel = 0
  · subst h
    rw [compensateStages_zero, compensateStages_zero]
    rfl
  · have hraw : (completeOk (compensateStages sel s)).raw = s.raw := by simp
    have hcoef : (completeOk (compensateStages sel s)).coef = s.coef := by simp
    rw [compensateStages_ne_congr h hraw hcoef, compensateStages_ne s h]
    exact completeOk_writeStages_idem s _ _

/-! ### The zero-divisor branch (45_stage_pressure.md R162) -/

theorem sdiv_zero (d : Nat) : sdiv 0 d = 0 := by
  simp [sdiv, wrap32]

theorem pressureDivisor_eq_zero {c : Coefficients} (h : c.p1 = 0) (tfine : Word) : pressureDivisor tfine c = 0 := by
  have hp1 : zextIn c.p1 = 0 := by rw [h]; rfl
  simp only [pressureDivisor, hp1, mul32_eq, mul_zero, sdiv_zero]

theorem stagePressure_of_divisor_zero {tfine : Word} {c : Coefficients} (h : pressureDivisor tfine c = 0)
    (rawP : Word) : stagePressure rawP tfine c = 30000 := by
  simp only [stagePressure, h, if_true]

/-! ### The views of the registers 21 to 24 -/

theorem registerView_tfine {s : State} (h : s.tfineWritten = true) : registerView s 21 = s.tfine :=
  registerView_of_written (n := 21) h

theorem registerView_out_p {s : State} (h : s.outWritten = true) : registerView s 22 = s.out.p :=
  registerView_of_written (n := 22) h

theorem registerView_out_t {s : State} (h : s.outWritten = true) : registerView s 23 = s.out.t :=
  registerView_of_written (n := 23) h

theorem registerView_out_h {s : State} (h : s.outWritten = true) : registerView s 24 = s.out.h :=
  registerView_of_written (n := 24) h

end Sys2Proof.Machine

namespace Sys2Proof.Proofs

open Sys2Proof.Machine

/-- Settles O17: the second issue reads what the first read, and writes what the first wrote. -/
theorem commandsAreRepeatable : Obligations.CommandsAreRepeatable := by
  unfold Obligations.CommandsAreRepeatable
  intro i s t h
  cases i with
  | calunpack =>
    rw [exec_calunpack] at h
    cases h
    rw [exec_calunpack, unpackCoefficients_after_calunpack]
    rfl
  | rawparse =>
    rw [exec_rawparse] at h
    cases h
    rw [exec_rawparse, parseRaw_after_rawparse]
    rfl
  | compensate sel =>
    obtain ⟨hc, hr, rfl⟩ | ⟨habsent, rfl⟩ := exec_compensate_cases h
    · rw [exec_compensate_present sel (by simpa using hc) (by simpa using hr), completeOk_compensateStages_idem]
    · exact exec_compensate_absent sel habsent

/-- Settles O39: each stage ends with its clamp, and what is not selected is 0 or a clamped reading. -/
theorem compensateOutputsStayInRange : Obligations.CompensateOutputsStayInRange := by
  unfold Obligations.CompensateOutputsStayInRange
  intro s sel hc hr
  obtain ⟨hlo, hhi⟩ := compensateStages_out_t_range sel s
  refine ⟨_, exec_compensate_present sel hc hr, fun h => ?_, fun h => ?_, hlo, hhi, compensateStages_out_h_range sel s⟩
  · rw [completeOk_out, compensateStages_out_p_of_selected s h]
    exact stagePressure_range _ _ _
  · rw [completeOk_out, compensateStages_out_p, selectsPressure_eq, h]
    rfl

/-- Settles O40: each selected output, and `TFINE`, is a function of the raw registers and the coefficients. -/
theorem outputsDoNotDependOnSelector : Obligations.OutputsDoNotDependOnSelector := by
  unfold Obligations.OutputsDoNotDependOnSelector
  intro s t u sel sel' hc hr ht hu
  rw [exec_compensate_present sel hc hr] at ht
  rw [exec_compensate_present sel' hc hr] at hu
  cases ht
  cases hu
  simp only [completeOk_out, completeOk_tfine]
  refine ⟨fun h h' => ?_, fun h h' => ?_, fun h h' => ?_, fun h h' => ?_⟩
  · rw [compensateStages_out_p_of_selected s h, compensateStages_out_p_of_selected s h']
  · rw [compensateStages_out_t_of_selected s h, compensateStages_out_t_of_selected s h']
  · rw [compensateStages_out_h_of_selected s h, compensateStages_out_h_of_selected s h']
  · rw [compensateStages_tfine_ne s h, compensateStages_tfine_ne s h']

/-- Settles O41: the update that the stages make overwrites the three old values without reading them. -/
theorem staleTfineIsNeverRead : Obligations.StaleTfineIsNeverRead := by
  unfold Obligations.StaleTfineIsNeverRead
  intro s sel v o f hsel hc hr
  have hstages : compensateStages sel { s with tfine := v, out := o, tfValid := f } = compensateStages sel s := by
    rw [compensateStages_ne s hsel]
    exact (compensateStages_ne_congr hsel rfl rfl).trans (writeStages_overwrites s _ v _ o f)
  rw [exec_compensate_present sel hc hr, ← hstages]
  exact exec_compensate_present sel hc hr

/-- Settles O42: the stages write outputs, `TFINE` and `tf_valid` only, and a fault writes `STATUS` only. -/
theorem compensateFrame : Obligations.CompensateFrame := by
  unfold Obligations.CompensateFrame
  intro s t sel h
  obtain ⟨-, -, rfl⟩ | ⟨-, rfl⟩ := exec_compensate_cases h
  · simp
  · exact ⟨rfl, rfl, rfl, rfl, fun _ => rfl, rfl, fun _ => ⟨rfl, rfl, rfl⟩⟩

/-- Settles O46: with `P1` = 0 the divisor of step P-19 is 0. -/
theorem zeroPressureDivisorGivesLowerBound : Obligations.ZeroPressureDivisorGivesLowerBound := by
  unfold Obligations.ZeroPressureDivisorGivesLowerBound
  intro s sel hc hr hsel hp1
  refine ⟨_, exec_compensate_present sel hc hr, ?_⟩
  rw [completeOk_out, compensateStages_out_p_of_selected s hsel,
    stagePressure_of_divisor_zero (pressureDivisor_eq_zero hp1 _)]
  rfl

/-- Settles O58: ZERO marks the three outputs, and the temperature stage marks `TFINE`. -/
theorem compensateMakesOutputsReadable : Obligations.CompensateMakesOutputsReadable := by
  unfold Obligations.CompensateMakesOutputsReadable
  intro s sel hc hr
  have hout : (completeOk (compensateStages sel s)).outWritten = true := compensateStages_outWritten sel s
  have htfine : sel ≠ 0 → (completeOk (compensateStages sel s)).tfineWritten = true := fun h => by
    rw [completeOk_tfineWritten, compensateStages_tfineWritten, if_neg h]
  have hzero : sel = 0 → (completeOk (compensateStages sel s)).tfineWritten = s.tfineWritten := fun h => by
    rw [completeOk_tfineWritten, compensateStages_tfineWritten, if_pos h]
  exact ⟨_, exec_compensate_present sel hc hr, fun n h h' => (registerWritten_outputs _ h h').trans hout, htfine, hzero,
    registerView_out_p hout, registerView_out_t hout, registerView_out_h hout,
    fun h => registerView_tfine (htfine h)⟩

end Sys2Proof.Proofs
end

section
/-! PROOFS. The datapath's arithmetic (40_datapath_arithmetic.md): wrapping respects sums and products, division
truncates and is a biased shift, unsigned operations are exact modulo 2^32, and the clamps. -/

namespace Sys2Proof.Machine

/-! ### Wrapping respects the ring operations (40_datapath_arithmetic.md R91) -/

theorem wrap32_add (y z : Int) : wrap32 (y + z) = wrap32 y + wrap32 z := BitVec.ofInt_add y z

theorem wrap32_sub (y z : Int) : wrap32 (y - z) = wrap32 y - wrap32 z := by
  rw [Int.sub_eq_add_neg, wrap32_add, BitVec.sub_eq_add_neg]
  exact congrArg (wrap32 y + ·) (BitVec.ofInt_neg)

theorem wrap32_mul (y z : Int) : wrap32 (y * z) = wrap32 y * wrap32 z := BitVec.ofInt_mul y z

/-! ### Division by a power of two (40_datapath_arithmetic.md R84, R85) -/

/-- Truncation of a negative dividend is the floor of its absolute value, negated. -/
theorem neg_ediv_neg_eq_tdiv {a : Int} (h : a < 0) (d : Int) : -(-a / d) = a.tdiv d := by
  rw [← Int.tdiv_eq_ediv_of_nonneg (by omega), Int.neg_tdiv, neg_neg]

/-- The dividend of R85 with its bias, as an integer. -/
def biased (a : Int) (k : Nat) : Int :=
  if a < 0 then a + (2 ^ k - 1) else a

/-- Rounding the biased dividend down is rounding the dividend toward zero. -/
theorem biased_ediv (a : Int) (k : Nat) : biased a k / 2 ^ k = a.tdiv (2 ^ k) := by
  have hd : (0 : Int) < 2 ^ k := by positivity
  rw [biased]
  split
  next hneg =>
    rw [← neg_ediv_neg_eq_tdiv hneg]
    generalize (2 : Int) ^ k = d at hd ⊢
    have hdiv := Int.mul_ediv_add_emod (-a) d
    have hlo := Int.emod_nonneg (-a) (ne_of_gt hd)
    have hhi := Int.emod_lt_of_pos (-a) hd
    have hsum : a + (d - 1) = d - 1 - -a % d + -(-a / d) * d := by linarith
    rw [hsum, Int.add_mul_ediv_right _ _ (ne_of_gt hd), Int.ediv_eq_zero_of_lt (by omega) (by omega), zero_add]
  next hpos => rw [Int.tdiv_eq_ediv_of_nonneg (by omega)]

theorem toInt_ofNat_33 {n : Nat} (h : n < 2 ^ 32) : (BitVec.ofNat 33 n).toInt = n := by
  have hn : (BitVec.ofNat 33 n).toNat = n := Nat.mod_eq_of_lt (by omega)
  rw [BitVec.toInt_eq_toNat_of_lt (by omega), hn]

/-- The 33-bit sum of R85 does not overflow. -/
theorem toInt_add_bias (a : Word) {k : Nat} (hk : k ≤ 30) :
    (a.signExtend 33 + if a.toInt < 0 then BitVec.ofNat 33 (2 ^ k - 1) else 0).toInt = biased a.toInt k := by
  have hrange := toInt_range a
  have hlo : 0 < 2 ^ k := Nat.two_pow_pos k
  have hhi : 2 ^ k ≤ 2 ^ 30 := Nat.pow_le_pow_right (by decide) hk
  have hcast : ((2 ^ k - 1 : Nat) : Int) = 2 ^ k - 1 := by rw [Nat.cast_sub hlo, Nat.cast_pow]; rfl
  rw [biased, ← hcast]
  split
  · rw [BitVec.toInt_add, BitVec.toInt_signExtend_of_le (by decide), toInt_ofNat_33 (by omega), Int.bmod_def]
    split <;> omega
  · rw [add_zero, BitVec.toInt_signExtend_of_le (by decide)]

end Sys2Proof.Machine

namespace Sys2Proof.Proofs

open Sys2Proof.Machine

/-- Settles O48: the quotient fits, and truncation is the floor of the absolute value. -/
theorem signedDivisionTruncates : Obligations.SignedDivisionTruncates := by
  unfold Obligations.SignedDivisionTruncates
  intro a d hd
  rw [toInt_sdiv a hd]
  split
  next hpos => exact Int.tdiv_eq_ediv_of_nonneg hpos
  next hneg => exact (neg_ediv_neg_eq_tdiv (by omega) d).symm

/-- Settles O49: both sides wrap the truncated quotient. -/
theorem biasedShiftIsDivision : Obligations.BiasedShiftIsDivision := by
  unfold Obligations.BiasedShiftIsDivision
  intro a k _ hk
  have hshift := toInt_add_bias a hk
  dsimp only
  generalize a.signExtend 33 + (if a.toInt < 0 then BitVec.ofNat 33 (2 ^ k - 1) else 0) = x at hshift ⊢
  calc
    sdiv a (2 ^ k) = wrap32 (a.toInt.tdiv (2 ^ k)) := by rw [sdiv, Nat.cast_pow]; rfl
    _ = wrap32 (x.sshiftRight k).toInt := by
      rw [BitVec.toInt_sshiftRight, hshift, Int.shiftRight_eq_div_pow, ← biased_ediv]
      norm_num
    _ = (x.sshiftRight k).setWidth 32 := (BitVec.signExtend_eq_setWidth_of_le (x.sshiftRight k) (by decide))

/-- Settles O50: wrapping is compatible with the product and the sum, so it may be done once at the end. -/
theorem multiplyAccumulateMayFuse : Obligations.MultiplyAccumulateMayFuse := by
  unfold Obligations.MultiplyAccumulateMayFuse
  intro a b c
  rw [mac, msub, add32_eq, sub32_eq, mul32_eq, wrap32_add, wrap32_sub, wrap32_mul, wrap32_toInt, wrap32_toInt,
    wrap32_toInt]
  exact ⟨rfl, rfl⟩

/-- Settles O57: each unsigned operation is the exact result reduced, and a doubled word below 2^31 needs no
reduction. -/
theorem unsignedOperationsWrap : Obligations.UnsignedOperationsWrap := by
  unfold Obligations.UnsignedOperationsWrap
  intro a b
  refine ⟨toNat_addU a b, toNat_subU a b, toNat_mulU a b, fun h => ?_, toNat_udiv a⟩
  have hshift := toNat_shl1 a
  rw [u32Int] at hshift
  omega

/-- Settles O51: in each of the three cases of a clamp the value returned fits. -/
theorem clampBoundsValue : Obligations.ClampBoundsValue := by
  unfold Obligations.ClampBoundsValue
  exact ⟨fun v lo hi h hlo hhi => toInt_clampS v h hlo hhi, fun v lo hi h hhi => toNat_clampU v h hhi⟩

end Sys2Proof.Proofs
end

section
/-! PROOFS. The three stages on integers (44, 45, 46): one lemma for each named part of a stage, with the integer its
steps give, and from these the table of steps of the whole stage. -/

namespace Sys2Proof.Machine

/-! ### The two readings of a word (40_datapath_arithmetic.md R81) -/

theorem toNat_eq_u32Int_toInt (a : Word) : (a.toNat : Int) = u32Int a.toInt := by
  have h := a.isLt
  rw [BitVec.toInt_eq_toNat_cond, u32Int]
  split <;> omega

/-- The signed sum read as unsigned. -/
theorem toNat_add32 (a b : Word) : ((add32 a b).toNat : Int) = u32Int (a.toInt + b.toInt) := toNat_wrap32 _

/-- A quotient by 2 or more is below 2^31, so both readings of it agree. -/
theorem toInt_udiv (a : Word) {b : Word} (hb : 2 ≤ b.toNat) : (udiv a b).toInt = a.toNat / b.toNat := by
  have hne : b ≠ 0 := by
    rintro rfl
    exact absurd hb (by decide)
  have hlt : a.toNat / b.toNat ≤ a.toNat / 2 := Nat.div_le_div_left hb (by decide)
  have ha := a.isLt
  rw [toInt_of_small (by rw [toNat_udiv a hne]; omega), toNat_udiv a hne, Int.natCast_ediv]

/-! ### The temperature stage (44_stage_temperature.md R151, R153) -/

theorem toInt_fineTemperature (rawT : Word) (t1 t2 t3 : Half) :
    (fineTemperature rawT t1 t2 t3).toInt =
      wrapInt ((wrapInt (wrapInt (rawT.toNat / 8 - wrapInt (t1.toNat * 2)) * t2.toInt)).tdiv 2048 +
        (wrapInt ((wrapInt (wrapInt (rawT.toNat / 16 - t1.toNat) * wrapInt (rawT.toNat / 16 - t1.toNat))).tdiv 4096
          * t3.toInt)).tdiv 16384) := by
  simp (disch := decide) only [fineTemperature, toInt_add32, toInt_sub32, toInt_mul32, toInt_sdiv, toInt_udiv,
    toInt_zextIn, toInt_sextIn, BitVec.ofNat_eq_ofNat, BitVec.reduceToInt, BitVec.reduceToNat, Nat.cast_ofNat]

/-- The reading before and after its clamp. -/
theorem toInt_unclampedTemperature (tfine : Word) :
    (unclampedTemperature tfine).toInt = (wrapInt (wrapInt (tfine.toInt * 5) + 128)).tdiv 256 := by
  simp (disch := decide) only [unclampedTemperature, toInt_add32, toInt_mul32, toInt_sdiv, BitVec.ofNat_eq_ofNat,
    BitVec.reduceToInt, Nat.cast_ofNat]

theorem toInt_temperatureReading (tfine : Word) :
    (temperatureReading tfine).toInt =
      if (unclampedTemperature tfine).toInt < -4000 then -4000
      else if 8500 < (unclampedTemperature tfine).toInt then 8500 else (unclampedTemperature tfine).toInt :=
  toInt_clampS _ (by decide) (by decide) (by decide)

/-! ### The pressure stage (45_stage_pressure.md R161 to R166) -/

theorem toInt_pressureOffset (tfine : Word) :
    (pressureOffset tfine).toInt = wrapInt (tfine.toInt.tdiv 2 - 64000) := by
  simp (disch := decide) only [pressureOffset, toInt_sub32, toInt_sdiv, BitVec.ofNat_eq_ofNat, BitVec.reduceToInt,
    Nat.cast_ofNat]

theorem toInt_pressureSquare (tfine : Word) :
    (pressureSquare tfine).toInt =
      wrapInt ((pressureOffset tfine).toInt.tdiv 4 * (pressureOffset tfine).toInt.tdiv 4) := by
  simp (disch := decide) only [pressureSquare, toInt_mul32, toInt_sdiv, Nat.cast_ofNat]

theorem toInt_pressureBias (tfine : Word) (c : Coefficients) :
    (pressureBias tfine c).toInt =
      wrapInt ((wrapInt (wrapInt ((pressureSquare tfine).toInt.tdiv 2048 * c.p6.toInt) +
        wrapInt (wrapInt ((pressureOffset tfine).toInt * c.p5.toInt) * 2))).tdiv 4 +
        wrapInt (c.p4.toInt * 65536)) := by
  simp (disch := decide) only [pressureBias, toInt_add32, toInt_mul32, toInt_sdiv, toInt_sextIn,
    BitVec.ofNat_eq_ofNat, BitVec.reduceToInt, Nat.cast_ofNat]

theorem toInt_pressureDivisor (tfine : Word) (c : Coefficients) :
    (pressureDivisor tfine c).toInt =
      (wrapInt (wrapInt (32768 + (wrapInt ((wrapInt (c.p3.toInt * (pressureSquare tfine).toInt.tdiv 8192)).tdiv 8 +
        (wrapInt (c.p2.toInt * (pressureOffset tfine).toInt)).tdiv 2)).tdiv 262144) * c.p1.toNat)).tdiv 32768 := by
  simp (disch := decide) only [pressureDivisor, toInt_add32, toInt_mul32, toInt_sdiv, toInt_sextIn, toInt_zextIn,
    BitVec.ofNat_eq_ofNat, BitVec.reduceToInt, Nat.cast_ofNat]

theorem toNat_pressureDividend (rawP var2 : Word) :
    ((pressureDividend rawP var2).toNat : Int) =
      u32Int (u32Int (u32Int (1048576 - rawP.toNat) - u32Int (var2.toInt.tdiv 4096)) * 3125) := by
  simp (disch := decide) only [pressureDividend, toNat_mulU, toNat_subU, toNat_eq_u32Int_toInt (sdiv _ _), toInt_sdiv,
    BitVec.ofNat_eq_ofNat, BitVec.reduceToNat, Nat.cast_ofNat]

/-- Both arms of step P-19; the second divides before it doubles. -/
theorem toNat_pressureQuotient (p : Word) {dv : Word} (h : dv ≠ 0) :
    ((pressureQuotient p dv).toNat : Int) =
      if (p.toNat : Int) < 0x80000000 then u32Int (p.toNat * 2) / u32Int dv.toInt
      else u32Int (p.toNat / u32Int dv.toInt * 2) := by
  rw [← toNat_eq_u32Int_toInt dv, pressureQuotient]
  split
  next hp => rw [if_pos (by omega), toNat_udiv _ h, Int.natCast_ediv, toNat_shl1]
  next hp => rw [if_neg (by omega), toNat_mulU, toNat_udiv _ h, Int.natCast_ediv]; rfl

theorem toNat_pressureCorrected (p : Word) (c : Coefficients) :
    ((pressureCorrected p c).toNat : Int) =
      u32Int (wrapInt p.toNat +
        (wrapInt (wrapInt ((wrapInt (c.p9.toInt * (u32Int (p.toNat / 8 * (p.toNat / 8)) / 8192))).tdiv 4096 +
          (wrapInt (p.toNat / 4 * c.p8.toInt)).tdiv 8192) + c.p7.toInt)).tdiv 16) := by
  simp (disch := decide) only [pressureCorrected, toNat_add32, toInt_add32, toInt_mul32, toInt_sdiv, toInt_sextIn,
    toInt_udiv, toNat_mulU, toNat_udiv, toInt_eq_wrapInt_toNat p, Int.natCast_ediv, BitVec.ofNat_eq_ofNat,
    BitVec.reduceToNat, Nat.cast_ofNat]

/-- The unsigned clamp on integers. -/
theorem natCast_clampU {lo hi : Nat} (v : Word) (h : lo ≤ hi) (h₂ : hi < 4294967296) :
    ((clampU v lo hi).toNat : Int) =
      if (v.toNat : Int) < lo then (lo : Int) else if (hi : Int) < v.toNat then hi else v.toNat := by
  rw [toNat_clampU v h h₂]
  split_ifs <;> omega

theorem stagePressure_of_divisor_ne_zero {tfine : Word} {c : Coefficients} (h : pressureDivisor tfine c ≠ 0)
    (rawP : Word) :
    stagePressure rawP tfine c =
      clampU (pressureCorrected (pressureQuotient (pressureDividend rawP (pressureBias tfine c))
        (pressureDivisor tfine c)) c) 30000 110000 := by
  simp only [stagePressure, h, if_false]

/-! ### The humidity stage (46_stage_humidity.md R181 to R183) -/

/-- A 16-bit raw humidity times 2^14 stays below 2^31, so step H-2 wraps nothing. -/
theorem toInt_mulU_16384 {rawH : Word} (h : rawH.toNat < 2 ^ 16) : (mulU rawH 16384#32).toInt = rawH.toNat * 16384 := by
  have hnat : ((mulU rawH 16384#32).toNat : Int) = u32Int (rawH.toNat * 16384) := toNat_mulU rawH 16384
  rw [u32Int] at hnat
  rw [toInt_of_small (by omega)]
  omega

theorem toInt_humidityDifference {rawH : Word} (h : rawH.toNat < 2 ^ 16) (tfine : Word) (c : Coefficients) :
    (humidityDifference rawH tfine c).toInt =
      (wrapInt (wrapInt (wrapInt (rawH.toNat * 16384 - wrapInt (c.h4.toInt * 1048576)) -
        wrapInt (c.h5.toInt * wrapInt (tfine.toInt - 76800))) + 16384)).tdiv 32768 := by
  simp (disch := decide) only [humidityDifference, toInt_add32, toInt_sub32, toInt_mul32, toInt_sdiv, toInt_sextIn,
    toInt_mulU_16384 h, BitVec.ofNat_eq_ofNat, BitVec.reduceToInt, Nat.cast_ofNat]

theorem toInt_humidityGain (tfine : Word) (c : Coefficients) :
    (humidityGain tfine c).toInt =
      (wrapInt (wrapInt (wrapInt ((wrapInt ((wrapInt (wrapInt (tfine.toInt - 76800) * c.h6.toInt)).tdiv 1024 *
        wrapInt ((wrapInt (wrapInt (tfine.toInt - 76800) * c.h3.toNat)).tdiv 2048 + 32768))).tdiv 1024 + 2097152) *
        c.h2.toInt) + 8192)).tdiv 16384 := by
  simp (disch := decide) only [humidityGain, toInt_add32, toInt_sub32, toInt_mul32, toInt_sdiv, toInt_sextIn,
    toInt_zextIn, BitVec.ofNat_eq_ofNat, BitVec.reduceToInt, Nat.cast_ofNat]

theorem toInt_humidityQuadratic (var3 : Word) (h1 : Byte) :
    (humidityQuadratic var3 h1).toInt =
      wrapInt (var3.toInt - (wrapInt ((wrapInt (var3.toInt.tdiv 32768 * var3.toInt.tdiv 32768)).tdiv 128 *
        h1.toNat)).tdiv 16) := by
  simp (disch := decide) only [humidityQuadratic, toInt_sub32, toInt_mul32, toInt_sdiv, toInt_zextIn, Nat.cast_ofNat]

theorem toInt_humidityLimited (var5 : Word) :
    (humidityLimited var5).toInt =
      if var5.toInt < 0 then 0 else if 419430400 < var5.toInt then 419430400 else var5.toInt :=
  toInt_clampS var5 (by decide) (by decide) (by decide)

theorem toNat_of_toInt_nonneg {a : Word} (h : 0 ≤ a.toInt) : (a.toNat : Int) = a.toInt := by
  have hrange := toInt_range a
  rw [toNat_eq_u32Int_toInt, u32Int]
  omega

/-- The limits of steps H-17 and H-18 are 0 and 102400 times 4096, so the bound of step H-20 is never passed. -/
theorem toNat_stageHumidity (rawH tfine : Word) (c : Coefficients) :
    ((stageHumidity rawH tfine c).toNat : Int) =
      (humidityLimited (humidityQuadratic
        (mul32 (humidityDifference rawH tfine c) (humidityGain tfine c)) c.h1)).toInt / 4096 := by
  rw [stageHumidity]
  generalize humidityQuadratic _ c.h1 = var5
  have hlim : 0 ≤ (humidityLimited var5).toInt ∧ (humidityLimited var5).toInt ≤ 419430400 := by
    rw [toInt_humidityLimited]
    split_ifs <;> omega
  obtain ⟨hlo, hhi⟩ := hlim
  have hquot : (sdiv (humidityLimited var5) 4096).toInt = (humidityLimited var5).toInt / 4096 := by
    rw [toInt_sdiv _ (by decide), Int.tdiv_eq_ediv_of_nonneg hlo]
    rfl
  have hnat := toNat_of_toInt_nonneg (a := sdiv (humidityLimited var5) 4096) (by omega)
  rw [natCast_clampU _ (by decide) (by decide), if_neg (by omega), if_neg (by omega), hnat, hquot]

end Sys2Proof.Machine

namespace Sys2Proof.Proofs

open Sys2Proof.Machine

/-- Settles O43: the steps T-1 to T-12 by the rules of the datapath, and the clamp of step T-13. -/
theorem temperatureStageMatchesSteps : Obligations.TemperatureStageMatchesSteps := by
  unfold Obligations.TemperatureStageMatchesSteps
  refine ⟨toInt_fineTemperature, fun tfine => ?_⟩
  rw [toInt_temperatureReading, toInt_unclampedTemperature]

/-- Settles O44: the parts of the stage in the order of the steps; the divisor is 0 as a word exactly when it is 0 as
an integer. -/
theorem pressureStageMatchesSteps : Obligations.PressureStageMatchesSteps := by
  unfold Obligations.PressureStageMatchesSteps
  intro rawP tfine c h v1 q qq v2 v2' v2'' v3 v4 v1' g dv v5 d p p' e w1 w2 adj p''
  have hv1 : (pressureOffset tfine).toInt = v1 := toInt_pressureOffset tfine
  have hqq : (pressureSquare tfine).toInt = qq := by rw [toInt_pressureSquare, hv1]
  have hv2 : (pressureBias tfine c).toInt = v2'' := by rw [toInt_pressureBias, hqq, hv1]
  have hdv : (pressureDivisor tfine c).toInt = dv := by rw [toInt_pressureDivisor, hqq, hv1]
  have hp : ((pressureDividend rawP (pressureBias tfine c)).toNat : Int) = p := by rw [toNat_pressureDividend, hv2]
  by_cases hzero : pressureDivisor tfine c = 0
  · have hdv0 : dv = 0 := by rw [← hdv, hzero]; rfl
    rw [stagePressure_of_divisor_zero hzero, if_pos hdv0]
    rfl
  · have hdv0 : dv ≠ 0 := fun h0 => hzero (BitVec.eq_of_toInt_eq (hdv.trans h0))
    rw [stagePressure_of_divisor_ne_zero hzero, natCast_clampU _ (by decide) (by decide), toNat_pressureCorrected,
      toNat_pressureQuotient _ hzero, hp, hdv, if_neg hdv0]
    rfl

/-- Settles O45: the parts of the stage in the order of the steps. -/
theorem humidityStageMatchesSteps : Obligations.HumidityStageMatchesSteps := by
  unfold Obligations.HumidityStageMatchesSteps
  intro rawH tfine c hraw
  dsimp only
  rw [toNat_stageHumidity, toInt_humidityLimited, toInt_humidityQuadratic, toInt_mul32, toInt_humidityDifference hraw,
    toInt_humidityGain]

end Sys2Proof.Proofs
end
